-- ==== Sys2Proof/Word.lean ====
section
/-! DEFINITION. The word types: bytes and 32-bit words (00_scope.md R10, R13). -/

namespace Sys2Proof

/-- One byte of IN, of the header or of an emitted file (R80, R10). -/
abbrev Byte := BitVec 8

/-- A 32-bit register, pixel word or command word (R33, R131, R150). -/
abbrev Word := BitVec 32

end Sys2Proof
end

