-- ==== Sys2Proof/Syntax.lean ====
section
/-! DEFINITION. The operations of spec/opcode_table.json, one constructor per row. -/

namespace Sys2Proof

/-- The block decoder chosen for the whole image (10_state.md R40, 30_encoding.md R152). -/
inductive Variant where
  | bc1
  | bc2
  | bc3
  deriving DecidableEq, Repr, Inhabited

/-- The three code spaces of the opcode table: the host command word CMD (R150), the sequencer's step
code STEP with its label 7 (R151), and the variant selector VSEL (R152). -/
inductive Format where
  | cmd
  | step
  | vsel
  deriving DecidableEq, Repr

/-- One constructor per row of spec/opcode_table.json. Operands are the ones the rules name: ALL of CONVERT,
the block address and pixel origin of a decoder (R200), the coordinates and pixel word of a canvas write (R292).
Addresses and coordinates are natural numbers, as R14 and R292 say. -/
inductive Instr where
  /-- NOP (R311). -/
  | nop
  /-- CONVERT with ALL = CMD[8] (R310). -/
  | convert (all : Bool)
  /-- PARSE (R183). -/
  | parse
  /-- SETUP (R313). -/
  | setup
  /-- DECODE (R319). -/
  | decode
  /-- DECODE_BC1 of the block at IN address `a` with pixel origin (`ox`, `oy`) (R210). -/
  | decodeBc1 (a ox oy : Nat)
  /-- DECODE_BC2 of the block at IN address `a` with pixel origin (`ox`, `oy`) (R245). -/
  | decodeBc2 (a ox oy : Nat)
  /-- DECODE_BC3 of the block at IN address `a` with pixel origin (`ox`, `oy`) (R265). -/
  | decodeBc3 (a ox oy : Nat)
  /-- CANVAS_WRITE of pixel word `v` at logical coordinate (`x`, `y`) (R292). -/
  | canvasWrite (x y : Nat) (v : Word)
  /-- EMIT (R350). -/
  | emit
  /-- NEXT (R323). -/
  | nextLevel
  /-- END (R324). -/
  | endRun
  deriving DecidableEq, Repr

end Sys2Proof
end

