-- ==== Sys2Proof/WellFormed.lean ====
section
/-! DEFINITION. Which instructions have an encoding: every address and coordinate fits its 32-bit operand word
(the operand words are the model's, notes/assumptions/8.md). -/

namespace Sys2Proof

/-- An address or a coordinate that fits a 32-bit operand word. -/
def fitsWord (n : Nat) : Bool := decide (n < 2 ^ 32)

/-- The instruction has an encoding. -/
def Instr.wf : Instr → Bool
  | .nop => true
  | .convert _ => true
  | .parse => true
  | .setup => true
  | .decode => true
  | .decodeBc1 a ox oy => fitsWord a && fitsWord ox && fitsWord oy
  | .decodeBc2 a ox oy => fitsWord a && fitsWord ox && fitsWord oy
  | .decodeBc3 a ox oy => fitsWord a && fitsWord ox && fitsWord oy
  | .canvasWrite x y _ => fitsWord x && fitsWord y
  | .emit => true
  | .nextLevel => true
  | .endRun => true

end Sys2Proof
end

