-- ==== Sys2Proof/Decode.lean ====
section
/-! DEFINITION. Byte order, the variant selector, the decoder and the encoder of the three code spaces
(20_memory.md R85; 30_encoding.md R150, R151, R152). -/

namespace Sys2Proof

/-! ### Byte order -/

/-- The `n` little-endian bytes of `v`, lowest address first (R85, R86). -/
def leBytes : Nat → Nat → List Byte
  | 0, _ => []
  | n + 1, v => BitVec.ofNat 8 v :: leBytes n (v / 256)

/-- The number whose little-endian bytes these are (R85). -/
def leNat : List Byte → Nat
  | [] => 0
  | b :: bs => b.toNat + 256 * leNat bs

/-! ### The variant selector -/

/-- VSEL = (textureType, compression, alphaType), textureType in the high bits (R152). -/
def vselOf (textureType : BitVec 32) (compression alphaType : Byte) : BitVec 48 :=
  textureType ++ compression ++ alphaType

/-- The VSEL pattern that selects a variant (R152). -/
def vselPattern : Variant → BitVec 48
  | .bc1 => 0x000000010200#48
  | .bc2 => 0x000000010201#48
  | .bc3 => 0x000000010207#48

/-- The variant a VSEL value selects, or none (R152, R153). -/
def variantOf (v : BitVec 48) : Option Variant :=
  if v = vselPattern .bc1 then some .bc1
  else if v = vselPattern .bc2 then some .bc2
  else if v = vselPattern .bc3 then some .bc3
  else none

/-! ### Decoding -/

/-- Why no instruction is read. -/
inductive DecodeError where
  /-- OP 0x2 to 0xF of CMD (R150). -/
  | reservedOp (op : BitVec 4)
  /-- Step code 0 is IDLE, the state in which no step runs (R151, R432). -/
  | idleCode
  /-- A VSEL value that selects no decoder (R152, R153). -/
  | noVariant (vsel : BitVec 48)
  /-- Fewer bytes than the instruction has. -/
  | tooShort
  deriving DecidableEq, Repr

/-- What decoding answers: an instruction and the bytes after it, or the named reason why there is none. -/
abbrev Decoded := Except DecodeError (Instr × List Byte)

/-- The little-endian number in the first `n` bytes, and the bytes after them. -/
def takeNat (n : Nat) (bs : List Byte) : Except DecodeError (Nat × List Byte) :=
  if bs.length < n then .error .tooShort else .ok (leNat (bs.take n), bs.drop n)

/-- A command word (R150): OP = CMD[3:0], ALL = CMD[8], every other bit ignored. -/
def decodeCmdWord (w : Word) : Except DecodeError Instr :=
  let op := w.extractLsb' 0 4
  if op = 0 then .ok .nop
  else if op = 1 then .ok (.convert (w.getLsbD 8))
  else .error (.reservedOp op)

/-- The instruction in the command space. -/
def decodeCmd (bs : List Byte) : Decoded :=
  match takeNat 4 bs with
  | .error e => .error e
  | .ok (w, rest) =>
    match decodeCmdWord (BitVec.ofNat 32 w) with
    | .error e => .error e
    | .ok i => .ok (i, rest)

/-- The operands of a canvas write: x, y and the pixel word, four bytes each. -/
def decodeCanvasWrite (bs : List Byte) : Decoded :=
  match takeNat 4 bs with
  | .error e => .error e
  | .ok (x, bs1) =>
    match takeNat 4 bs1 with
    | .error e => .error e
    | .ok (y, bs2) =>
      match takeNat 4 bs2 with
      | .error e => .error e
      | .ok (v, rest) => .ok (.canvasWrite x y (BitVec.ofNat 32 v), rest)

/-- The step code is the low three bits of its byte (R151). -/
def decodeStep (bs : List Byte) : Decoded :=
  match bs with
  | [] => .error .tooShort
  | b :: rest =>
    let code := b.extractLsb' 0 3
    if code = 0 then .error .idleCode
    else if code = 1 then .ok (.parse, rest)
    else if code = 2 then .ok (.setup, rest)
    else if code = 3 then .ok (.decode, rest)
    else if code = 4 then .ok (.emit, rest)
    else if code = 5 then .ok (.nextLevel, rest)
    else if code = 6 then .ok (.endRun, rest)
    else decodeCanvasWrite rest

/-- The decoder operation of a variant. -/
def decoderInstr : Variant → Nat → Nat → Nat → Instr
  | .bc1, a, ox, oy => .decodeBc1 a ox oy
  | .bc2, a, ox, oy => .decodeBc2 a ox oy
  | .bc3, a, ox, oy => .decodeBc3 a ox oy

/-- The operands of a block decoder: the block address and the pixel origin, four bytes each. -/
def decodeBlockOperands (v : Variant) (bs : List Byte) : Decoded :=
  match takeNat 4 bs with
  | .error e => .error e
  | .ok (a, bs1) =>
    match takeNat 4 bs1 with
    | .error e => .error e
    | .ok (ox, bs2) =>
      match takeNat 4 bs2 with
      | .error e => .error e
      | .ok (oy, rest) => .ok (decoderInstr v a ox oy, rest)

/-- VSEL in the first six bytes, then the decoder's operands (R152, R200). -/
def decodeVsel (bs : List Byte) : Decoded :=
  match takeNat 6 bs with
  | .error e => .error e
  | .ok (w, rest) =>
    match variantOf (BitVec.ofNat 48 w) with
    | none => .error (.noVariant (BitVec.ofNat 48 w))
    | some v => decodeBlockOperands v rest

/-- The decoder, total on any bytes of each code space. -/
def decode (f : Format) (bs : List Byte) : Decoded :=
  match f with
  | .cmd => decodeCmd bs
  | .step => decodeStep bs
  | .vsel => decodeVsel bs

/-! ### Encoding -/

/-- The code space an instruction belongs to. -/
def Instr.format : Instr → Format
  | .nop => .cmd
  | .convert _ => .cmd
  | .parse => .step
  | .setup => .step
  | .decode => .step
  | .decodeBc1 _ _ _ => .vsel
  | .decodeBc2 _ _ _ => .vsel
  | .decodeBc3 _ _ _ => .vsel
  | .canvasWrite _ _ _ => .step
  | .emit => .step
  | .nextLevel => .step
  | .endRun => .step

/-- The bytes of a decoder operation: VSEL, block address, origin. -/
def encodeBlock (v : Variant) (a ox oy : Nat) : List Byte :=
  leBytes 6 (vselPattern v).toNat ++ leBytes 4 a ++ leBytes 4 ox ++ leBytes 4 oy

/-- The bytes of an instruction, from the tables of R150, R151 and R152. Reserved bits are written 0. -/
def encode : Instr → List Byte
  | .nop => leBytes 4 0x00000000
  | .convert all => leBytes 4 (if all then 0x00000101 else 0x00000001)
  | .parse => leBytes 1 1
  | .setup => leBytes 1 2
  | .decode => leBytes 1 3
  | .decodeBc1 a ox oy => encodeBlock .bc1 a ox oy
  | .decodeBc2 a ox oy => encodeBlock .bc2 a ox oy
  | .decodeBc3 a ox oy => encodeBlock .bc3 a ox oy
  | .canvasWrite x y v => leBytes 1 7 ++ leBytes 4 x ++ leBytes 4 y ++ leBytes 4 v.toNat
  | .emit => leBytes 1 4
  | .nextLevel => leBytes 1 5
  | .endRun => leBytes 1 6

/-- The bytes of the longest instruction, a decoder operation. -/
def maxInstrBytes : Nat := 18

/-- The code space of a table word of `nbits` bits: STEP words have at most 8, CMD words 32, VSEL words 48. -/
def formatOfBits (nbits : Nat) : Option Format :=
  if nbits ≤ 8 then some .step
  else if nbits ≤ 32 then some .cmd
  else if nbits ≤ 48 then some .vsel
  else none

/-- The instruction's bytes with the bits of `w` in its first `nbits` and zeros above them. -/
def tableBytes (nbits w : Nat) : List Byte :=
  leBytes maxInstrBytes (w % 2 ^ nbits)

/-- What the decoder reads from an instruction whose bits are `w`, numbered as spec/opcode_table.json numbers
them; every bit above `nbits` is 0. -/
def decodeTableWord (nbits w : Nat) : Option Instr :=
  match formatOfBits nbits with
  | none => none
  | some f =>
    match decode f (tableBytes nbits w) with
    | .error _ => none
    | .ok (i, _) => some i

end Sys2Proof
end

