-- ==== Sys2Proof/Config.lean ====
section
/-! DEFINITION. What an implementation fixes: the parameters of 00_scope.md R9, and the free values of the spec as
constants without a body. -/

namespace Sys2Proof

/-- The legal values of BC1_T3_RGB (R9, R205). -/
inductive T3Rgb where
  | zero
  | average
  | oneThird
  deriving DecidableEq, Repr, Inhabited

/-- The legal values of DIM_POLICY (R9, R314, R328). -/
inductive DimPolicy where
  | fail
  | crop
  deriving DecidableEq, Repr, Inhabited

/-- The host's answer to one Emit (R401, D40): ok or fail and nothing else. -/
inductive EmitAnswer where
  | ok
  | fail
  deriving DecidableEq, Repr, Inhabited

/-- The parameters a model of BLPDEC takes as arguments (R9). -/
structure Params where
  /-- BC1_T3_RGB. -/
  bc1T3Rgb : T3Rgb
  /-- DIM_POLICY. -/
  dimPolicy : DimPolicy
  /-- CANVAS_CAPACITY_BYTES, any natural number. -/
  canvasCapacity : Nat
  /-- BMP_XPPM, a signed 32-bit integer. -/
  bmpXppm : Int
  /-- BMP_YPPM, a signed 32-bit integer. -/
  bmpYppm : Int
  /-- BMP_CSTYPE, an unsigned 32-bit number. -/
  bmpCsType : Nat
  /-- MAX_IN_LEN, at most 2^32 - 1. -/
  maxInLen : Nat
  deriving DecidableEq, Repr

/-- Every parameter is in its legal set (R9). BC1_T3_RGB, DIM_POLICY and CANVAS_CAPACITY_BYTES are legal by their
types. -/
def Params.legal (p : Params) : Bool :=
  decide (-2 ^ 31 ≤ p.bmpXppm ∧ p.bmpXppm < 2 ^ 31 ∧ -2 ^ 31 ≤ p.bmpYppm ∧ p.bmpYppm < 2 ^ 31
    ∧ p.bmpCsType < 2 ^ 32 ∧ p.maxInLen ≤ 2 ^ 32 - 1)

/-- BC1_T3_RGB is OPEN (R9, D7): no value is chosen (notes/assumptions/3.md). -/
opaque Config.bc1T3Rgb : T3Rgb

/-- CANVAS_CAPACITY_BYTES is OPEN (R9, D21): no value is chosen (notes/assumptions/3.md). -/
opaque Config.canvasCapacity : Nat

/-- The draw an UNWRITTEN canvas cell reads as (R356, D26), fresh for each number (notes/assumptions/7.md). -/
opaque Config.draw : Nat → Word

/-- The host's answer to an Emit for which no answer is listed (R401), fresh for each number
(notes/assumptions/4.md). -/
opaque Config.emitAnswer : Nat → EmitAnswer

/-- The parameters in `State.reset`: R9's own values, and the constants without a body for the two OPEN ones. -/
def Config.params : Params where
  bc1T3Rgb := Config.bc1T3Rgb
  dimPolicy := .fail
  canvasCapacity := Config.canvasCapacity
  bmpXppm := 0
  bmpYppm := 0
  bmpCsType := 1
  maxInLen := 2 ^ 32 - 1

end Sys2Proof
end

