-- ==== Sys2Proof/Machine/State.lean ====
section
/-! DEFINITION. The state of BLPDEC (10_state.md R30), as plain data, and the state after reset (R55). -/

namespace Sys2Proof.Machine

/-- The marks FAULT can hold (60_exceptions.md R392); they are also the reasons a step of a faulted machine
stops. -/
inductive Fault where
  /-- FAULT_CANVAS_BOUNDS: raised by a canvas write outside the canvas (R293). Safe: the machine stops, as the
  spec says. -/
  | canvasBounds
  /-- FAULT_IN_BOUNDS: raised by a read of IN past IN_LEN, or of an address that holds no byte (R15). Safe: the
  machine stops, as the spec says. -/
  | inBounds
  /-- FAULT_UNWRITTEN: raised by a read of C0, C1, CSEL or AFIELD before its first write in a run (R45). Safe: the
  machine stops, as the spec says. -/
  | unwritten
  deriving DecidableEq, Repr

/-- Why the model gives a step no meaning. -/
inductive Refusal where
  /-- An instruction without a meaning. Raised by no arm of this model. Safe. -/
  | notModelled (mnemonic : String)
  /-- REFUSED_PARAM: a run launched with a parameter outside its legal set (R9, R392). Raised by CONVERT. Safe: the
  spec gives such a run no meaning. -/
  | param
  /-- REFUSED_HOST: the host breaks a duty of R402 (R392). Raised by CONVERT and by host accesses. Safe: the spec
  gives such a run no meaning. -/
  | host
  deriving DecidableEq, Repr

/-- STEP (R31); the codes are in R151. -/
inductive SeqStep where
  | idle
  | parse
  | setup
  | decode
  | emit
  | nextLevel
  | endRun
  deriving DecidableEq, Repr

/-- SEQ, the control position (R31). -/
structure SeqPos where
  /-- STEP, the step that runs next. -/
  step : SeqStep
  /-- LEVEL, 0..16. -/
  level : Fin 17
  /-- BLOCK, the next block to decode within the level. -/
  block : Nat
  /-- PIX, the pixel being resolved within the block. -/
  pix : Fin 16
  deriving DecidableEq, Repr

/-- The level result codes (R38, R380); codes 7..15 are never produced. -/
inductive LevelCode where
  | notRun
  | ok
  | truncated
  | unsupportedEncoding
  | ioError
  | allocationError
  | irregularDimensions
  deriving DecidableEq, Repr

/-- The fatal error codes (R381); codes 3..15 are never produced. -/
inductive FatalCode where
  | none
  | badMagic
  | headerTruncated
  deriving DecidableEq, Repr

/-- STATUS by its fields (R35); the reserved bits are hard-wired to 0 in the word a host reads. -/
structure Status where
  busy : Bool
  done : Bool
  badCmd : Bool
  fatal : FatalCode
  levelsVisited : BitVec 5
  levelsEmitted : BitVec 5
  deriving DecidableEq, Repr

/-- LVL, the per-level registers (R40). -/
structure Lvl where
  curW : Nat
  curH : Nat
  variant : Variant
  bs : Nat
  nbx : Nat
  nby : Nat
  sliceBase : Nat
  sliceLen : Nat
  deriving DecidableEq, Repr

/-- DP, the datapath registers (R43, R44). `none` is the spec's own UNWRITTEN (R45, R431). -/
structure Dp where
  c0 : Option (BitVec 16)
  c1 : Option (BitVec 16)
  csel : Option (BitVec 32)
  afield : Option (BitVec 64)
  deriving DecidableEq, Repr

/-- One palette entry (R46). -/
structure PalEntry where
  r : BitVec 5
  g : BitVec 6
  b : BitVec 5
  a : BitVec 8
  deriving DecidableEq, Repr

/-- FLAGS (R48, R49). -/
structure Flags where
  mode4 : Bool
  amode7 : Bool
  deriving DecidableEq, Repr

/-- IN: the bytes the host has placed (R80), addresses strictly rising; an unlisted address holds no byte. -/
abbrev Memory := List Host.Cell

/-- The written cells of a canvas, storage indices strictly rising; an unlisted index is UNWRITTEN (R51). -/
abbrev Cells := List (Nat × Word)

/-- CANVAS while a level is processed (R51, R290). -/
structure Canvas where
  width : Nat
  height : Nat
  cells : Cells
  deriving DecidableEq, Repr

/-- One record of OUT (R52). -/
structure OutImage where
  level : Nat
  width : Nat
  height : Nat
  bytes : List Byte
  deriving DecidableEq, Repr

/-- What the host can do (R400, R430). A register access has a size in bytes, so that a narrow one, which R90
refuses, can be written down. -/
inductive HostEvent where
  /-- The host does nothing and the engine takes one step. -/
  | pass
  /-- A write of `value` to the register space. -/
  | write (addr size : Nat) (value : Word)
  /-- A read of the register space; the value goes to `hostReads`. -/
  | read (addr size : Nat)
  /-- The host places a whole file in IN from address 0 (R434). -/
  | loadIn (bytes : List Byte)
  /-- The host asserts reset (R430). -/
  | reset
  deriving DecidableEq, Repr

/-- The state of BLPDEC (R30), the launch parameters a run takes (R9, R12, R401), and the model's own fields, which
the docstrings name as such. -/
structure State where
  /-- The parameters of R9; no step writes them. -/
  params : Params
  /-- IN (R80). -/
  inMem : Memory
  /-- IN_LEN (R37). -/
  inLen : Word
  /-- STATUS (R35). -/
  status : Status
  /-- HDR[0..147], the latched header bytes (R36). -/
  hdr : Vector Byte 148
  /-- LEVEL_STATUS[0..15] (R38). -/
  levelStatus : Vector LevelCode 16
  /-- SEQ (R31). -/
  seq : SeqPos
  /-- LVL (R40). -/
  lvl : Lvl
  /-- DP (R42 to R45). -/
  dp : Dp
  /-- PAL[0..3] (R46). -/
  pal : Vector PalEntry 4
  /-- ARAMP[0..7] (R47). -/
  aramp : Vector Byte 8
  /-- FLAGS (R48, R49). -/
  flags : Flags
  /-- CANVAS, or none (R51). -/
  canvas : Option Canvas
  /-- OUT, oldest image first (R52). -/
  out : List OutImage
  /-- FAULT; `none` is NONE (R53). -/
  fault : Option Fault
  /-- RUN_ALL (R329). -/
  runAll : Bool
  /-- The model's own: what the host does, next action first (notes/assumptions/2.md). -/
  host : List HostEvent
  /-- The model's own: the host's answers to Emit, next answer first (R401, notes/assumptions/4.md). -/
  answers : List EmitAnswer
  /-- The model's own: address and value of each register read the host has made, oldest first
  (notes/assumptions/2.md). -/
  hostReads : List (Nat × Word)
  /-- The model's own: a decoder or canvas operation handed to its unit directly (notes/assumptions/6.md). -/
  issue : Option Instr
  /-- The model's own: the number of the next free Emit answer (notes/assumptions/4.md). -/
  emitCount : Nat
  /-- The model's own: the number of the next free canvas draw (notes/assumptions/7.md). -/
  drawCount : Nat
  deriving DecidableEq, Repr

/-- The machine right after reset: R55 and R431 for every field they give; the launch parameters and the model's own
fields as notes/assumptions/1.md to 7.md say. -/
def State.reset : State where
  params := Config.params
  inMem := []
  inLen := 0
  status := ⟨false, false, false, .none, 0, 0⟩
  hdr := Vector.replicate 148 0
  levelStatus := Vector.replicate 16 .notRun
  seq := ⟨.idle, 0, 0, 0⟩
  lvl := ⟨0, 0, .bc1, 8, 0, 0, 0, 0⟩
  dp := ⟨none, none, none, none⟩
  pal := Vector.replicate 4 ⟨0, 0, 0, 0⟩
  aramp := Vector.replicate 8 0
  flags := ⟨false, false⟩
  canvas := none
  out := []
  fault := none
  runAll := false
  host := []
  answers := []
  hostReads := []
  issue := none
  emitCount := 0
  drawCount := 0

end Sys2Proof.Machine
end

