-- ==== Sys2Proof/Machine/Ops.lean ====
section
/-! DEFINITION. The named operations over memory and registers, and the error entries (R381, R383, R384, R392). -/

namespace Sys2Proof.Machine

/-- The answer of a step or a meaning. -/
abbrev Answer := Host.Outcome State Fault Refusal

/-! ### Cells by address -/

/-- The value at an address, or none where nothing is listed. -/
def lookupCell {α : Type} : List (Nat × α) → Nat → Option α
  | [], _ => none
  | (k, v) :: rest, a => if a = k then some v else lookupCell rest a

/-- The list with `v` at address `a`; the addresses stay strictly rising. -/
def storeCell {α : Type} : List (Nat × α) → Nat → α → List (Nat × α)
  | [], a, v => [(a, v)]
  | (k, w) :: rest, a, v =>
    if a < k then (a, v) :: (k, w) :: rest
    else if a = k then (a, v) :: rest
    else (k, w) :: storeCell rest a v

/-- Every address is at least `low` and the addresses are strictly rising. -/
def risingFrom {α : Type} : Nat → List (Nat × α) → Bool
  | _, [] => true
  | low, (k, _) :: rest => decide (low ≤ k) && risingFrom (k + 1) rest

/-- The canonical form of IN: addresses strictly rising. An unlisted address reads as no byte, so no entry can equal
what an unlisted address reads as. -/
def Memory.wf (m : Memory) : Bool := risingFrom 0 m

/-- The canonical form of a canvas: storage indices strictly rising. -/
def Cells.wf (c : Cells) : Bool := risingFrom 0 c

/-- A file's bytes at addresses from `a` on. -/
def placeBytes : Nat → List Byte → Memory
  | _, [] => []
  | a, b :: bs => (a, b) :: placeBytes (a + 1) bs

/-- The listed addresses are exactly `a`, `a + 1`, and so on without a gap. -/
def contiguousFrom : Nat → Memory → Bool
  | _, [] => true
  | a, (k, _) :: rest => decide (k = a) && contiguousFrom (a + 1) rest

/-! ### IN -/

/-- The `n` bytes of IN from address `a`, where every one of them is there. -/
def memBytes (m : Memory) : Nat → Nat → Option (List Byte)
  | 0, _ => some []
  | n + 1, a =>
    match lookupCell m a with
    | none => none
    | some b =>
      match memBytes m n (a + 1) with
      | none => none
      | some bs => some (b :: bs)

/-- The `n` bytes of IN from `a` on; defined only when a + n ≤ IN_LEN (R15). -/
def inReadBytes (s : State) (a n : Nat) : Option (List Byte) :=
  if a + n ≤ s.inLen.toNat then memBytes s.inMem n a else none

/-- InRead(a, n), little-endian (R15, R85). -/
def inRead (s : State) (a n : Nat) : Option Nat := (inReadBytes s a n).map leNat

/-- The host's duty on IN holds: IN_LEN is the number of valid bytes, and they lie at 0 .. IN_LEN-1 (R80, R402). -/
def inDuty (s : State) : Bool := contiguousFrom 0 s.inMem && decide (s.inMem.length = s.inLen.toNat)

/-! ### The header latch -/

/-- HDR[k] (R36). -/
def hdrByte (h : Vector Byte 148) (k : Nat) : Byte := if hk : k < 148 then h[k] else 0

/-- The little-endian number in the `n` header bytes from offset `o` (R85, R120). -/
def hdrField (h : Vector Byte 148) (o n : Nat) : Nat :=
  leNat ((List.range n).map fun j => hdrByte h (o + j))

/-- textureType (R120). -/
def hdrTextureType (h : Vector Byte 148) : Nat := hdrField h 4 4

/-- width (R120). -/
def hdrWidth (h : Vector Byte 148) : Nat := hdrField h 12 4

/-- height (R120). -/
def hdrHeight (h : Vector Byte 148) : Nat := hdrField h 16 4

/-- MIP_OFFSET[i] (R120). -/
def mipOffset (h : Vector Byte 148) (i : Nat) : Nat := hdrField h (20 + 4 * i) 4

/-- MIP_LENGTH[i] (R120). -/
def mipLength (h : Vector Byte 148) (i : Nat) : Nat := hdrField h (84 + 4 * i) 4

/-- VSEL of the latched header (R152): textureType, compression, alphaType. -/
def hdrVsel (h : Vector Byte 148) : BitVec 48 :=
  vselOf (BitVec.ofNat 32 (hdrTextureType h)) (hdrByte h 8) (hdrByte h 10)

/-- The latch holding these bytes. -/
def hdrOfBytes (bs : List Byte) : Vector Byte 148 :=
  ⟨((List.range 148).map fun k => bs.getD k 0).toArray, by simp⟩

/-! ### Named updates -/

/-- step -> X (R16). -/
def State.goto (s : State) (x : SeqStep) : State := { s with seq := { s.seq with step := x } }

/-- PIX <- p (R31). -/
def State.setPix (s : State) (p : Fin 16) : State := { s with seq := { s.seq with pix := p } }

/-- FAULT <- f (R392): the model-level fault entry. Nothing else changes. -/
def State.raise (s : State) (f : Fault) : State := { s with fault := some f }

/-- Discard the canvas, if any (R298). -/
def State.discardCanvas (s : State) : State := { s with canvas := none }

/-- LEVEL_STATUS[LEVEL] <- c (R380); LEVEL = 16 names no register. -/
def State.setLevelStatus (s : State) (c : LevelCode) : State :=
  if h : s.seq.level.val < 16 then { s with levelStatus := s.levelStatus.set s.seq.level.val c h } else s

/-- STATUS.LEVELS_VISITED <- STATUS.LEVELS_VISITED + 1 (R383, R350). -/
def State.countVisited (s : State) : State :=
  { s with status := { s.status with levelsVisited := s.status.levelsVisited + 1 } }

/-- The per-level error entry (R383): status, count, canvas, step -> NEXT, and nothing else. -/
def State.levelError (s : State) (c : LevelCode) : State :=
  ((s.setLevelStatus c).countVisited.discardCanvas).goto .nextLevel

/-- The fatal error entry (R384, R183): STATUS.FATAL and step -> END. -/
def State.fatalError (s : State) (c : FatalCode) : State :=
  ({ s with status := { s.status with fatal := c } }).goto .endRun

/-! ### Sequencing within one atomic step -/

/-- An operation of the engine: a machine whose FAULT is set has no step (R53, R444). -/
def whenLive (s : State) (k : State → Answer) : Answer :=
  match s.fault with
  | some f => .fault f
  | none => k s

/-- Go on with `k` unless a fault has stopped the operation (R293). -/
def State.andThen (s : State) (k : State → State) : State :=
  match s.fault with
  | some _ => s
  | none => k s

/-- InRead into a register: `put` writes the value, a read out of bounds raises FAULT_IN_BOUNDS (R15). -/
def State.load (s : State) (a n : Nat) (put : State → Nat → State) : State :=
  match inRead s a n with
  | none => s.raise .inBounds
  | some v => put s v

/-! ### The canvas store -/

/-- A canvas of the given size with every cell UNWRITTEN (R290). -/
def blankCanvas (w h : Nat) : Canvas := ⟨w, h, []⟩

/-- s(x, y) = (H - 1 - y) * W + x (R291). -/
def storageIndex (c : Canvas) (x y : Nat) : Nat := (c.height - 1 - y) * c.width + x

/-- CanvasWrite(x, y, v) (R292, R293). Without a canvas every coordinate is out of range. -/
def State.canvasStore (s : State) (x y : Nat) (v : Word) : State :=
  match s.canvas with
  | none => s.raise .canvasBounds
  | some c =>
    if x < c.width ∧ y < c.height then
      { s with canvas := some { c with cells := storeCell c.cells (storageIndex c x y) v } }
    else s.raise .canvasBounds

/-- The value of canvas cell `i`, or none where it is UNWRITTEN (R296). -/
def State.canvasCell (s : State) (i : Nat) : Option Word :=
  match s.canvas with
  | none => none
  | some c => lookupCell c.cells i

/-- Put one image at the end of OUT (R350, R52). -/
def State.pushOut (s : State) (img : OutImage) : State := { s with out := s.out ++ [img] }

end Sys2Proof.Machine
end

