-- ==== Sys2Proof/Machine/Operands.lean ====
section
/-! DEFINITION. Operand forms: index fields, the pixel word, 5:6:5 colours, block loads and the colour and alpha ramps
(30_encoding.md R125 to R133; 41_bc1.md R202 to R205; 42_bc2.md R240 to R242; 43_bc3.md R260 to R262). -/

namespace Sys2Proof.Machine

/-! ### Index fields -/

/-- Sel(word, k, i): the i-th k-bit field, least significant first (R17). -/
def sel {w : Nat} (word : BitVec w) (k i : Nat) : BitVec k := word.extractLsb' (k * i) k

/-- CI(p) = CSEL[2p+1 : 2p] (R129). -/
def colourIndex (csel : BitVec 32) (p : Nat) : BitVec 2 := sel csel 2 p

/-- AN(p) = AFIELD[4p+3 : 4p] (R130). -/
def alphaNibble (afield : BitVec 64) (p : Nat) : BitVec 4 := sel afield 4 p

/-- AI(p) = AFIELD[16+3p+2 : 16+3p] (R133). -/
def alphaIndex (afield : BitVec 64) (p : Nat) : BitVec 3 := sel (afield.extractLsb' 16 48) 3 p

/-! ### Pixel word and 5:6:5 colour -/

/-- PIXEL(r, g, b, a) = a << 16 | r << 11 | g << 5 | b, bits 31:24 zero (R131). -/
def pixelWord (r : BitVec 5) (g : BitVec 6) (b : BitVec 5) (a : BitVec 8) : Word := 0#8 ++ a ++ r ++ g ++ b

/-- A colour in its three lanes (R132). -/
structure Rgb where
  r : BitVec 5
  g : BitVec 6
  b : BitVec 5
  deriving DecidableEq, Repr

/-- unpack565 (R132, R202). -/
def unpack565 (c : BitVec 16) : Rgb := ⟨c.extractLsb' 11 5, c.extractLsb' 5 6, c.extractLsb' 0 5⟩

/-- The pixel word of a palette entry's colour with an alpha (R206, R243, R263). -/
def palPixel (e : PalEntry) (a : Byte) : Word := pixelWord e.r e.g e.b a

/-! ### The colour ramps -/

/-- One lane of the four-colour ramp (R204): the value of entry `k`. -/
def ramp4Lane (x y k : Nat) : Nat :=
  if k = 0 then x else if k = 1 then y else if k = 2 then (2 * x + y) / 3 else (x + 2 * y) / 3

/-- One lane of the colour of the transparent slot (R205). -/
def t3Lane (t : T3Rgb) (x y : Nat) : Nat :=
  match t with
  | .zero => 0
  | .average => (x + y) / 2
  | .oneThird => (x + 2 * y) / 3

/-- One lane of the three-colour ramp (R205): the value of entry `k`. -/
def ramp3Lane (t : T3Rgb) (x y k : Nat) : Nat :=
  if k = 0 then x else if k = 1 then y else if k = 2 then (x + y) / 2 else t3Lane t x y

/-- Entry `k` with its lanes written by a lane rule; the rules of R204 and R205 write no alpha, so field A stays
(notes/assumptions/10.md). -/
def rampEntry (lane : Nat → Nat → Nat → Nat) (p0 p1 : Rgb) (k : Nat) (old : PalEntry) : PalEntry where
  r := BitVec.ofNat 5 (lane p0.r.toNat p1.r.toNat k)
  g := BitVec.ofNat 6 (lane p0.g.toNat p1.g.toNat k)
  b := BitVec.ofNat 5 (lane p0.b.toNat p1.b.toNat k)
  a := old.a

/-- All four entries of PAL by a lane rule. -/
def rampPal (lane : Nat → Nat → Nat → Nat) (p0 p1 : Rgb) (pal : Vector PalEntry 4) : Vector PalEntry 4 :=
  #v[rampEntry lane p0 p1 0 pal[0], rampEntry lane p0 p1 1 pal[1], rampEntry lane p0 p1 2 pal[2],
    rampEntry lane p0 p1 3 pal[3]]

/-- RAMP4 (R204). -/
def ramp4 (c0 c1 : BitVec 16) (pal : Vector PalEntry 4) : Vector PalEntry 4 :=
  rampPal ramp4Lane (unpack565 c0) (unpack565 c1) pal

/-- RAMP3 (R205). -/
def ramp3 (t : T3Rgb) (c0 c1 : BitVec 16) (pal : Vector PalEntry 4) : Vector PalEntry 4 :=
  rampPal (ramp3Lane t) (unpack565 c0) (unpack565 c1) pal

/-! ### The alpha forms -/

/-- BC2's alpha expansion, AN | AN << 4 (R242). -/
def nibbleAlpha (n : BitVec 4) : Byte := n ++ n

/-- Entry `k` of the BC3 alpha ramp (R262): 7-step when a0 > a1, else 5-step. -/
def alphaRampEntry (a0 a1 k : Nat) : Nat :=
  if k = 0 then a0
  else if k = 1 then a1
  else if a0 > a1 then (a0 * (8 - k) + a1 * (k - 1)) / 7
  else if k = 6 then 0x00
  else if k = 7 then 0xFF
  else (a0 * (6 - k) + a1 * (k - 1)) / 5

/-- ARAMP (R262). -/
def alphaRamp (a0 a1 : Byte) : Vector Byte 8 :=
  let e := fun k => BitVec.ofNat 8 (alphaRampEntry a0.toNat a1.toNat k)
  #v[e 0, e 1, e 2, e 3, e 4, e 5, e 6, e 7]

/-! ### Block loads -/

/-- The block size in bytes (R125). -/
def blockSize : Variant → Nat
  | .bc1 => 8
  | .bc2 => 16
  | .bc3 => 16

/-- C0 <- v. -/
def State.setC0 (s : State) (v : Nat) : State := { s with dp := { s.dp with c0 := some (BitVec.ofNat 16 v) } }

/-- C1 <- v. -/
def State.setC1 (s : State) (v : Nat) : State := { s with dp := { s.dp with c1 := some (BitVec.ofNat 16 v) } }

/-- CSEL <- v. -/
def State.setCsel (s : State) (v : Nat) : State := { s with dp := { s.dp with csel := some (BitVec.ofNat 32 v) } }

/-- AFIELD <- v. -/
def State.setAfield (s : State) (v : Nat) : State :=
  { s with dp := { s.dp with afield := some (BitVec.ofNat 64 v) } }

/-- C0 <- InRead(a, 2). -/
def loadC0 (a : Nat) (s : State) : State := s.load a 2 State.setC0

/-- C1 <- InRead(a, 2). -/
def loadC1 (a : Nat) (s : State) : State := s.load a 2 State.setC1

/-- CSEL <- InRead(a, 4). -/
def loadCsel (a : Nat) (s : State) : State := s.load a 4 State.setCsel

/-- AFIELD <- InRead(a, 8). -/
def loadAfield (a : Nat) (s : State) : State := s.load a 8 State.setAfield

/-- The colour operands of a block, C0, C1 and CSEL from `a` on (R126 to R128). -/
def loadColours (a : Nat) (s : State) : State :=
  ((loadC0 a s).andThen (loadC1 (a + 2))).andThen (loadCsel (a + 4))

/-- The operands of a BC2 or BC3 block: AFIELD, then the colours from byte 8 on (R240, R260). -/
def loadAlphaBlock (a : Nat) (s : State) : State := (loadAfield a s).andThen (loadColours (a + 8))

end Sys2Proof.Machine
end

