-- ==== Sys2Proof/Machine/Flags.lean ====
section
/-! DEFINITION. The flags MODE4 and AMODE7, the STATUS word with its codes, and BADCMD (10_state.md R35, R38, R48, R49;
60_exceptions.md R380, R381). -/

namespace Sys2Proof.Machine

/-- BC1's mode select: C0 > C1 as unsigned 16-bit words (R203, R154). -/
def bc1Mode4 (c0 c1 : BitVec 16) : Bool := decide (c0.toNat > c1.toNat)

/-- BC3's alpha mode: a0 > a1 unsigned (R262, R154). -/
def bc3Amode7 (a0 a1 : Byte) : Bool := decide (a0.toNat > a1.toNat)

/-- MODE4 <- b. -/
def State.setMode4 (s : State) (b : Bool) : State := { s with flags := { s.flags with mode4 := b } }

/-- AMODE7 <- b. -/
def State.setAmode7 (s : State) (b : Bool) : State := { s with flags := { s.flags with amode7 := b } }

/-- STATUS.BADCMD <- 1: the whole effect of a CMD write with a reserved OP, while BUSY too (R35, R150;
notes/assumptions/9.md). -/
def State.setBadCmd (s : State) : State := { s with status := { s.status with badCmd := true } }

/-- The number of a fatal code (R381). -/
def fatalNumber : FatalCode → BitVec 4
  | .none => 0
  | .badMagic => 1
  | .headerTruncated => 2

/-- The number of a level result code (R380). -/
def levelNumber : LevelCode → BitVec 4
  | .notRun => 0
  | .ok => 1
  | .truncated => 2
  | .unsupportedEncoding => 3
  | .ioError => 4
  | .allocationError => 5
  | .irregularDimensions => 6

/-- The STATUS word a host reads (R35): [0] BUSY, [1] DONE, [2] BADCMD, [7:4] FATAL, [12:8] LEVELS_VISITED,
[20:16] LEVELS_EMITTED, every other bit 0. -/
def statusWord (t : Status) : Word :=
  0#11 ++ t.levelsEmitted ++ 0#3 ++ t.levelsVisited ++ fatalNumber t.fatal ++ 0#1 ++ BitVec.ofBool t.badCmd
    ++ BitVec.ofBool t.done ++ BitVec.ofBool t.busy

end Sys2Proof.Machine
end

