-- ==== Sys2Proof/Machine/Canvas.lean ====
section
/-! DEFINITION. The canvas writer, CANVAS_WRITE (44_canvas.md R292). -/

namespace Sys2Proof.Machine

/-- CANVAS_WRITE (label 7, R292): the store of R291, or FAULT_CANVAS_BOUNDS (R293). -/
def execCanvasWrite (x y : Nat) (v : Word) (s : State) : Answer := whenLive s fun s => .next (s.canvasStore x y v)

end Sys2Proof.Machine
end

