-- ==== Sys2Proof/Machine/Command.lean ====
section
/-! DEFINITION. The host commands NOP and CONVERT (45_orchestrator.md R310, R311). -/

namespace Sys2Proof.Machine

/-- NOP (R311): no effect. -/
def execNop (s : State) : Answer := .next s

/-- What an accepted CONVERT writes (R310), and the datapath registers UNWRITTEN again, since R45 counts their first
write in a run (notes/assumptions/12.md). -/
def State.startRun (s : State) (all : Bool) : State :=
  { s with
    runAll := all
    status := ⟨true, false, false, .none, 0, 0⟩
    levelStatus := Vector.replicate 16 .notRun
    hdr := Vector.replicate 148 0
    out := []
    seq := ⟨.parse, 0, 0, 0⟩
    dp := ⟨none, none, none, none⟩ }

/-- CONVERT (R310). No step in a faulted machine; ignored while BUSY; a run with an illegal parameter (R9) or with
IN_LEN other than the number of valid bytes of IN (R402) is refused (R392). -/
def execConvert (all : Bool) (s : State) : Answer :=
  whenLive s fun s =>
    if s.status.busy then .next s
    else if !s.params.legal then .refused .param
    else if !inDuty s then .refused .host
    else .next (s.startRun all)

end Sys2Proof.Machine
end

