-- ==== Sys2Proof/Machine/Decoders.lean ====
section
/-! DEFINITION. The three block decoders (41_bc1.md R200 to R210, 42_bc2.md R240 to R245, 43_bc3.md R260 to R265). -/

namespace Sys2Proof.Machine

/-! ### The pixel loop -/

/-- The pixels of a block in increasing order (R18, R206). -/
def allPixels : List (Fin 16) := [0, 1, 2, 3, 4, 5, 6, 7, 8, 9, 10, 11, 12, 13, 14, 15]

/-- Resolve the pixels in order, PIX naming the one being resolved (R31); a fault stops the loop with PIX at the pixel
that raised it, and a finished block leaves PIX 0 (notes/assumptions/13.md). -/
def pixelLoop (body : Fin 16 → State → State) : List (Fin 16) → State → State
  | [], s => s.setPix 0
  | p :: ps, s => (body p (s.setPix p)).andThen (pixelLoop body ps)

/-- How a decoder finds the alpha of pixel `p` with colour index `k`; none where it reads an UNWRITTEN register. -/
abbrev AlphaRule := State → Fin 16 → BitVec 2 → Option Byte

/-- Resolve and store pixel `p` (R206, R243, R263): the palette colour of CI(p) with the alpha of the rule. A register
that is UNWRITTEN raises FAULT_UNWRITTEN and gives no value (R45); the decoders write it first, so this is never
reached. -/
def storePixel (alpha : AlphaRule) (ox oy : Nat) (p : Fin 16) (s : State) : State :=
  match s.dp.csel with
  | none => s.raise .unwritten
  | some csel =>
    match alpha s p (colourIndex csel p.val) with
    | none => s.raise .unwritten
    | some a =>
      s.canvasStore (ox + p.val % 4) (oy + p.val / 4) (palPixel s.pal[(colourIndex csel p.val).toFin] a)

/-- The 16 pixels of a block at origin (ox, oy). -/
def storePixels (alpha : AlphaRule) (ox oy : Nat) (s : State) : State :=
  pixelLoop (storePixel alpha ox oy) allPixels s

/-! ### The alpha rules -/

/-- BC1: 0x00 only in 3-colour mode with index 3 (R206). -/
def bc1Alpha : AlphaRule := fun s _ k => some (if s.flags.mode4 = false ∧ k = 3 then 0x00 else 0xFF)

/-- BC2: the nibble in both halves (R242). -/
def bc2Alpha : AlphaRule := fun s p _ => s.dp.afield.map fun f => nibbleAlpha (alphaNibble f p.val)

/-- BC3: the ramp entry of AI(p) (R263). -/
def bc3Alpha : AlphaRule := fun s p _ => s.dp.afield.map fun f => s.aramp[(alphaIndex f p.val).toFin]

/-! ### The ramps as register operations -/

/-- BC1's MODE4 and PAL (R203 to R205). A read of an UNWRITTEN C0 or C1 is FAULT_UNWRITTEN (R45, R431). -/
def bc1Palette (s : State) : State :=
  match s.dp.c0, s.dp.c1 with
  | some c0, some c1 =>
    let m := bc1Mode4 c0 c1
    { s.setMode4 m with pal := if m then ramp4 c0 c1 s.pal else ramp3 s.params.bc1T3Rgb c0 c1 s.pal }
  | _, _ => s.raise .unwritten

/-- BC2's and BC3's MODE4 and PAL: always four colours (R241, R261). A read of an UNWRITTEN C0 or C1 is FAULT_UNWRITTEN
(R45, R431). -/
def fourColourPalette (s : State) : State :=
  match s.dp.c0, s.dp.c1 with
  | some c0, some c1 => { s.setMode4 true with pal := ramp4 c0 c1 s.pal }
  | _, _ => s.raise .unwritten

/-- BC3's AMODE7 and ARAMP (R262). A read of an UNWRITTEN AFIELD is FAULT_UNWRITTEN (R45, R431). -/
def bc3AlphaRamp (s : State) : State :=
  match s.dp.afield with
  | none => s.raise .unwritten
  | some f =>
    let a0 := f.extractLsb' 0 8
    let a1 := f.extractLsb' 8 8
    { s.setAmode7 (bc3Amode7 a0 a1) with aramp := alphaRamp a0 a1 }

/-! ### The decoders -/

/-- DECODE_BC1 (R210). -/
def bc1Block (a ox oy : Nat) (s : State) : State :=
  ((loadColours a s).andThen bc1Palette).andThen (storePixels bc1Alpha ox oy)

/-- DECODE_BC2 (R245). -/
def bc2Block (a ox oy : Nat) (s : State) : State :=
  ((loadAlphaBlock a s).andThen fourColourPalette).andThen (storePixels bc2Alpha ox oy)

/-- DECODE_BC3 (R265). -/
def bc3Block (a ox oy : Nat) (s : State) : State :=
  (((loadAlphaBlock a s).andThen fourColourPalette).andThen bc3AlphaRamp).andThen (storePixels bc3Alpha ox oy)

/-- The decoder of a variant (R152, R319). -/
def decodeBlock (v : Variant) (a ox oy : Nat) (s : State) : State :=
  match v with
  | .bc1 => bc1Block a ox oy s
  | .bc2 => bc2Block a ox oy s
  | .bc3 => bc3Block a ox oy s

/-- DECODE_BC1 on its unit (R210). -/
def execDecodeBc1 (a ox oy : Nat) (s : State) : Answer := whenLive s fun s => .next (bc1Block a ox oy s)

/-- DECODE_BC2 on its unit (R245). -/
def execDecodeBc2 (a ox oy : Nat) (s : State) : Answer := whenLive s fun s => .next (bc2Block a ox oy s)

/-- DECODE_BC3 on its unit (R265). -/
def execDecodeBc3 (a ox oy : Nat) (s : State) : Answer := whenLive s fun s => .next (bc3Block a ox oy s)

end Sys2Proof.Machine
end

