-- ==== Sys2Proof/Machine/Orchestrator.lean ====
section
/-! DEFINITION. The sequencer's steps SETUP, DECODE, NEXT and END (45_orchestrator.md R312 to R324). -/

namespace Sys2Proof.Machine

/-! ### SETUP -/

/-- The registers SETUP computes for LEVEL (R313). When VSEL selects no decoder, VARIANT and BS stay
(R315, notes/assumptions/11.md). -/
def levelRegs (s : State) : Lvl :=
  let i := s.seq.level.val
  let w := hdrWidth s.hdr / 2 ^ i
  let h := hdrHeight s.hdr / 2 ^ i
  { curW := w
    curH := h
    variant := (variantOf (hdrVsel s.hdr)).getD s.lvl.variant
    bs := ((variantOf (hdrVsel s.hdr)).map blockSize).getD s.lvl.bs
    nbx := w / 4
    nby := h / 4
    sliceBase := mipOffset s.hdr i
    sliceLen := mipLength s.hdr i }

/-- The dimension check fails (R314). -/
def badDimensions (pol : DimPolicy) (w h : Nat) : Bool :=
  decide (w = 0 ∨ h = 0) || (decide (pol = .fail) && decide (w % 4 ≠ 0 ∨ h % 4 ≠ 0))

/-- The allocation fails (R318): the 32-bit file size, or the canvas capacity. -/
def badAllocation (cap w h : Nat) : Bool :=
  decide (122 + 4 * w * h > 2 ^ 32 - 1) || decide (4 * w * h > cap)

/-- The first failing check of a level, in the order R314, R315, R316, R317, R318 (R313, R385). -/
def firstLevelError (p : Params) (v : Option Variant) (inLen : Nat) (l : Lvl) : Option LevelCode :=
  if badDimensions p.dimPolicy l.curW l.curH then some .irregularDimensions
  else if v = none then some .unsupportedEncoding
  else if l.sliceBase + l.sliceLen > inLen then some .truncated
  else if l.nbx * l.nby * l.bs > l.sliceLen then some .truncated
  else if badAllocation p.canvasCapacity l.curW l.curH then some .allocationError
  else none

/-- The directory ends at this level (R312). -/
def atTerminator (s : State) : Bool := decide (s.seq.level = 16) || decide (mipOffset s.hdr s.seq.level.val = 0)

/-- A level that passed every check: a blank canvas, BLOCK <- 0, step -> DECODE (R313, R318). -/
def State.startLevel (s : State) : State :=
  { s with
    canvas := some (blankCanvas s.lvl.curW s.lvl.curH)
    seq := { s.seq with step := .decode, block := 0 } }

/-- The checks of SETUP on a state whose level registers are set (R313). -/
def State.checkLevel (s : State) : State :=
  match firstLevelError s.params (variantOf (hdrVsel s.hdr)) s.inLen.toNat s.lvl with
  | some e => s.levelError e
  | none => s.startLevel

/-- SETUP (R312, R313). -/
def State.setupStep (s : State) : State :=
  if atTerminator s then s.goto .endRun else ({ s with lvl := levelRegs s }).checkLevel

/-- SETUP (step code 2, R313). -/
def execSetup (s : State) : Answer := whenLive s fun s => .next s.setupStep

/-! ### DECODE -/

/-- The IN address of block `k` (R321). -/
def blockAddr (l : Lvl) (k : Nat) : Nat := l.sliceBase + k * l.bs

/-- The pixel origin of block `k` (R320): its column. R14 gives `mod` a meaning for NBX > 0 only; with NBX = 0, which no
run meets at a block (R319), `k % 0 = k` is the model's choice (notes/assumptions/25.md). -/
def blockX (l : Lvl) (k : Nat) : Nat := 4 * (k % l.nbx)

/-- The pixel origin of block `k` (R320): its row. R14 gives `div` a meaning for NBX > 0 only; with NBX = 0, which no
run meets at a block (R319), `k / 0 = 0` is the model's choice (notes/assumptions/25.md). -/
def blockY (l : Lvl) (k : Nat) : Nat := 4 * (k / l.nbx)

/-- BLOCK <- BLOCK + 1, step -> DECODE (R319). -/
def State.nextBlock (s : State) : State :=
  { s with seq := { s.seq with step := .decode, block := s.seq.block + 1 } }

/-- DECODE (R319). A BLOCK above NBX*NBY, which R31 rules out, is treated as a block (notes/assumptions/25.md). -/
def State.decodeStep (s : State) : State :=
  if s.seq.block = s.lvl.nbx * s.lvl.nby then s.goto .emit
  else
    (decodeBlock s.lvl.variant (blockAddr s.lvl s.seq.block) (blockX s.lvl s.seq.block)
      (blockY s.lvl s.seq.block) s).andThen State.nextBlock

/-- DECODE (step code 3, R319). -/
def execDecode (s : State) : Answer := whenLive s fun s => .next s.decodeStep

/-! ### NEXT and END -/

/-- LEVEL + 1; LEVEL never wraps, it stops at 16 (R31). -/
def levelSucc (l : Fin 17) : Fin 17 := if h : l.val < 16 then ⟨l.val + 1, by omega⟩ else l

/-- NEXT (R323). -/
def State.nextLevelStep (s : State) : State :=
  if s.runAll then
    { s.discardCanvas with seq := { s.seq with step := .setup, level := levelSucc s.seq.level } }
  else s.discardCanvas.goto .endRun

/-- NEXT (step code 5, R323). -/
def execNext (s : State) : Answer := whenLive s fun s => .next s.nextLevelStep

/-- END (R324). -/
def State.endStep (s : State) : State :=
  ({ s with status := { s.status with busy := false, done := true } }).goto .idle

/-- END (step code 6, R324). -/
def execEnd (s : State) : Answer := whenLive s fun s => .next s.endStep

end Sys2Proof.Machine
end

