-- ==== Sys2Proof/Machine/Parser.lean ====
section
/-! DEFINITION. The header parser, PARSE (40_header_parser.md R180 to R184). -/

namespace Sys2Proof.Machine

/-- The magic number "BLP2" as a little-endian u32 (R121). -/
def blp2Magic : Nat := 0x32504C42

/-- Latch the header: HDR[k] <- IN[k] for k = 0..147, LEVEL <- 0, step -> SETUP (R183). -/
def State.latchHeader (s : State) (bs : List Byte) : State :=
  { s with hdr := hdrOfBytes bs, seq := { s.seq with step := .setup, level := 0 } }

/-- PARSE once the magic is right: the length check, then the latch (R183). -/
def State.parseHeader (s : State) : State :=
  if s.inLen.toNat < 148 then s.fatalError .headerTruncated
  else
    match inReadBytes s 0 148 with
    | none => s.raise .inBounds
    | some bs => s.latchHeader bs

/-- PARSE (R183): magic first, then length (R385). -/
def State.parseStep (s : State) : State :=
  if s.inLen.toNat < 4 then s.fatalError .badMagic
  else
    match inRead s 0 4 with
    | none => s.raise .inBounds
    | some m => if m ≠ blp2Magic then s.fatalError .badMagic else s.parseHeader

/-- PARSE (step code 1, R183). -/
def execParse (s : State) : Answer := whenLive s fun s => .next s.parseStep

end Sys2Proof.Machine
end

