-- ==== Sys2Proof/Machine/Serializer.lean ====
section
/-! DEFINITION. The BMP serializer, EMIT (46_bmp_encoder.md R350 to R356; 30_encoding.md R140, R141). -/

namespace Sys2Proof.Machine

/-- The 14 bytes of the file header (R351, R140). A file size that does not fit its 32-bit field, which R318 keeps out of
every run, is written modulo 2^32: the model's choice (notes/assumptions/26.md). -/
def fileHeader (w h : Nat) : List Byte :=
  leBytes 2 0x4D42 ++ leBytes 4 (122 + 4 * w * h) ++ leBytes 2 0 ++ leBytes 2 0 ++ leBytes 4 122

/-- A signed 32-bit parameter as the number its field holds. A value outside the legal set of R9, which no run has, is
written modulo 2^32: the model's choice (notes/assumptions/26.md). -/
def signedField (i : Int) : Nat := (BitVec.ofInt 32 i).toNat

/-- The 108 bytes of the DIB header (R352, R353, R140). A width, height, bitmap size or BMP_CSTYPE that does not fit its
32-bit field, which R318 and R9 keep out of every run, is written modulo 2^32: the model's choice
(notes/assumptions/26.md). -/
def dibHeader (p : Params) (w h : Nat) : List Byte :=
  leBytes 4 108 ++ leBytes 4 w ++ leBytes 4 h ++ leBytes 2 1 ++ leBytes 2 32 ++ leBytes 4 3 ++ leBytes 4 (4 * w * h)
    ++ leBytes 4 (signedField p.bmpXppm) ++ leBytes 4 (signedField p.bmpYppm) ++ leBytes 4 0 ++ leBytes 4 0
    ++ leBytes 4 0x0000F800 ++ leBytes 4 0x000007E0 ++ leBytes 4 0x0000001F ++ leBytes 4 0x00FF0000
    ++ leBytes 4 p.bmpCsType ++ leBytes 36 0 ++ leBytes 12 0

/-- The value EMIT reads from canvas cell `i`: the last written word, or the draw of an UNWRITTEN cell (R356). -/
def State.emitCell (s : State) (i : Nat) : Word := (s.canvasCell i).getD (Config.draw (s.drawCount + i))

/-- The pixel array: cells 0 .. W*H-1 in order, each little-endian (R355, R141). -/
def State.pixelArray (s : State) : List Byte :=
  (List.range (s.lvl.curW * s.lvl.curH)).flatMap fun i => leBytes 4 (s.emitCell i).toNat

/-- The BMP file of the level (R350). -/
def State.bmpFile (s : State) : List Byte :=
  fileHeader s.lvl.curW s.lvl.curH ++ dibHeader s.params s.lvl.curW s.lvl.curH ++ s.pixelArray

/-- The record handed to the host (R401, R52). -/
def State.image (s : State) : OutImage := ⟨s.seq.level.val, s.lvl.curW, s.lvl.curH, s.bmpFile⟩

/-- The host's answer to this Emit (R401): the next one listed, or a free one. -/
def State.hostAnswer (s : State) : EmitAnswer :=
  match s.answers with
  | a :: _ => a
  | [] => Config.emitAnswer s.emitCount

/-- The answer is used up, and so are the draws of this level's cells. -/
def State.useAnswer (s : State) : State :=
  { s with
    answers := s.answers.tail
    emitCount := s.emitCount + 1
    drawCount := s.drawCount + s.lvl.curW * s.lvl.curH }

/-- The level's image was accepted: OUT, LEVEL_STATUS, both counters, step -> NEXT (R350). -/
def State.acceptImage (s : State) (img : OutImage) : State :=
  let s1 := ((s.pushOut img).setLevelStatus .ok).countVisited
  ({ s1 with status := { s1.status with levelsEmitted := s1.status.levelsEmitted + 1 } }).goto .nextLevel

/-- EMIT (R350): an image the host could not write is a level error (R383). -/
def State.emitStep (s : State) : State :=
  match s.hostAnswer with
  | .ok => s.useAnswer.acceptImage s.image
  | .fail => s.useAnswer.levelError .ioError

/-- EMIT (step code 4, R350). -/
def execEmit (s : State) : Answer := whenLive s fun s => .next s.emitStep

end Sys2Proof.Machine
end

