-- ==== Sys2Proof/Machine/Dispatch.lean ====
section
/-! DEFINITION. One arm per instruction. -/

namespace Sys2Proof.Machine

def exec (i : Instr) (s : State) : Host.Outcome State Fault Refusal :=
  match i with
  | .nop => Sys2Proof.Machine.execNop s
  | .convert all => Sys2Proof.Machine.execConvert all s
  | .parse => Sys2Proof.Machine.execParse s
  | .setup => Sys2Proof.Machine.execSetup s
  | .decode => Sys2Proof.Machine.execDecode s
  | .decodeBc1 a ox oy => Sys2Proof.Machine.execDecodeBc1 a ox oy s
  | .decodeBc2 a ox oy => Sys2Proof.Machine.execDecodeBc2 a ox oy s
  | .decodeBc3 a ox oy => Sys2Proof.Machine.execDecodeBc3 a ox oy s
  | .canvasWrite x y v => Sys2Proof.Machine.execCanvasWrite x y v s
  | .emit => Sys2Proof.Machine.execEmit s
  | .nextLevel => Sys2Proof.Machine.execNext s
  | .endRun => Sys2Proof.Machine.execEnd s

end Sys2Proof.Machine
end

