-- ==== Sys2Proof/Machine/HostPort.lean ====
section
/-! DEFINITION. The register space REGSP and the host's other actions (10_state.md R33 to R39; 20_memory.md R82, R90,
R93; 60_exceptions.md R400, R402; 70_reset_and_hazards.md R430, R434). -/

namespace Sys2Proof.Machine

/-- An access the register space accepts: 4 bytes wide, at a multiple of 4, inside 0x000 .. 0x2FF (R82, R90). -/
def legalAccess (addr size : Nat) : Bool := decide (size = 4 ∧ addr % 4 = 0 ∧ addr < 0x300)

/-- Byte `k` of the header window as part of a word: HDR[k] (R36, R87). -/
def hdrWindowWord (h : Vector Byte 148) (k : Nat) : Word := BitVec.ofNat 32 (hdrField h k 4)

/-- LEVEL_STATUS[i] (R38): the code in [3:0], the rest 0. -/
def levelStatusWord (v : Vector LevelCode 16) (i : Nat) : Word :=
  if h : i < 16 then (levelNumber v[i]).setWidth 32 else 0

/-- What a host read of the register at `addr` returns (R33 to R39); it has no side effect (R93). -/
def regRead (s : State) (addr : Nat) : Word :=
  if addr = 0x000 then 0
  else if addr = 0x004 then statusWord s.status
  else if addr = 0x008 then s.inLen
  else if addr = 0x00C then BitVec.ofNat 32 s.seq.level.val
  else if addr = 0x010 then BitVec.ofNat 32 s.seq.block
  else if 0x100 ≤ addr ∧ addr ≤ 0x190 then hdrWindowWord s.hdr (addr - 0x100)
  else if 0x200 ≤ addr ∧ addr < 0x240 then levelStatusWord s.levelStatus ((addr - 0x200) / 4)
  else 0

/-- A host read (R93): the value is recorded for the host, and nothing else changes. -/
def hostRead (s : State) (addr size : Nat) : Answer :=
  if legalAccess addr size then .next { s with hostReads := s.hostReads ++ [(addr, regRead s addr)] }
  else .refused .host

/-- A write of IN_LEN (R37): ignored while BUSY; at most MAX_IN_LEN, which is the host's duty (R434). -/
def writeInLen (s : State) (v : Word) : Answer :=
  if s.status.busy then .next s
  else if v.toNat ≤ s.params.maxInLen then .next { s with inLen := v }
  else .refused .host

/-- A host write to a register that is not CMD (R39, R93): IN_LEN, or ignored. -/
def hostWrite (s : State) (addr : Nat) (v : Word) : Answer :=
  if addr = 0x008 then writeInLen s v else .next s

/-- The host places a file in IN (R434): refused while BUSY (R402, R437), and when it is longer than MAX_IN_LEN. -/
def hostLoad (s : State) (bytes : List Byte) : Answer :=
  if s.status.busy then .refused .host
  else if bytes.length ≤ s.params.maxInLen then .next { s with inMem := placeBytes 0 bytes }
  else .refused .host

/-- Reset (R430 to R433): every piece of the spec's state as in `State.reset`. IN, the parameters and the host's own
script, answers and notes are not BLPDEC's state and stay (R12, R431). -/
def hostReset (s : State) : State :=
  { State.reset with
    params := s.params
    inMem := s.inMem
    host := s.host
    answers := s.answers
    hostReads := s.hostReads
    emitCount := s.emitCount
    drawCount := s.drawCount }

end Sys2Proof.Machine
end

