-- ==== Sys2Proof/Machine/Fetch.lean ====
section
/-! DEFINITION. What runs next: the operation on the issue latch, the host's next action, or the sequencer's step
(10_state.md R31; 20_memory.md R93; 45_orchestrator.md R310, R311; 70_reset_and_hazards.md R432, R443). -/

namespace Sys2Proof.Machine

/-- What a state does next: run an instruction from a state, or answer at once. -/
inductive Fetched where
  | run (i : Instr) (s : State)
  | reply (o : Host.Outcome State Fault Refusal)

/-- The instruction of a sequencer step, by its name; IDLE runs none (R31, R151). -/
def stepInstr : SeqStep → Option Instr
  | .idle => none
  | .parse => some .parse
  | .setup => some .setup
  | .decode => some .decode
  | .emit => some .emit
  | .nextLevel => some .nextLevel
  | .endRun => some .endRun

/-- The sequencer step an instruction is, or none for the operations that are no step (R151). -/
def instrStep : Instr → Option SeqStep
  | .nop => none
  | .convert _ => none
  | .parse => some .parse
  | .setup => some .setup
  | .decode => some .decode
  | .decodeBc1 _ _ _ => none
  | .decodeBc2 _ _ _ => none
  | .decodeBc3 _ _ _ => none
  | .canvasWrite _ _ _ => none
  | .emit => some .emit
  | .nextLevel => some .nextLevel
  | .endRun => some .endRun

/-- The engine's turn (R443, R444): the step STEP names; in IDLE nothing happens (R398, R432); a faulted machine has
no step (R53). -/
def fetchEngine (s : State) : Fetched :=
  match stepInstr s.seq.step with
  | some i => .run i s
  | none =>
    match s.fault with
    | some f => .reply (.fault f)
    | none => .reply (.next s)

/-- A host write to the register space (R90, R93): a write to CMD is a command (R150), decoded from its four
bytes. -/
def fetchWrite (s : State) (addr size : Nat) (v : Word) : Fetched :=
  if !legalAccess addr size then .reply (.refused .host)
  else if addr = 0x000 then
    match decode .cmd (leBytes 4 v.toNat) with
    | .ok (i, _) => .run i s
    | .error _ => .reply (.next s.setBadCmd)
  else .reply (hostWrite s addr v)

/-- The host's turn, or the engine's where the host passes. -/
def fetchHost (e : HostEvent) (s : State) : Fetched :=
  match e with
  | .pass => fetchEngine s
  | .write addr size v => fetchWrite s addr size v
  | .read addr size => .reply (hostRead s addr size)
  | .loadIn bytes => .reply (hostLoad s bytes)
  | .reset => .reply (.next (hostReset s))

/-- What runs next. An operation on the issue latch goes first; then the host's next action; with nothing more on the
host's script the engine runs. -/
def fetch (s : State) : Fetched :=
  match s.issue with
  | some i => .run i { s with issue := none }
  | none =>
    match s.host with
    | [] => fetchEngine s
    | e :: rest => fetchHost e { s with host := rest }

/-- The state in which the next thing to run is this instruction: a command as a CMD write at the front of the host's
script, a sequencer step in STEP with the host passing once, a unit's operation on the issue latch. -/
def State.withInstr (s : State) (i : Instr) : State :=
  match instrStep i with
  | some x =>
    { s with issue := none, fault := none, host := .pass :: s.host, seq := { s.seq with step := x } }
  | none => { s with issue := some i, fault := none }

/-- The state whose next CMD write has this value. -/
def State.withCmdWrite (s : State) (v : Word) : State :=
  { s with issue := none, fault := none, host := .write 0x000 4 v :: s.host }

/-- The body of `State.withFetchWord`: a CMD word as a host write, any other word as the instruction it decodes to;
a word that decodes to nothing changes nothing. -/
def placeFetchWord (s : State) (nbits w : Nat) : State :=
  match formatOfBits nbits with
  | some .cmd => s.withCmdWrite (BitVec.ofNat 32 (w % 2 ^ nbits))
  | _ =>
    match decodeTableWord nbits w with
    | some i => s.withInstr i
    | none => s

end Sys2Proof.Machine
end

