-- ==== Sys2Proof/Machine/Step.lean ====
section
/-! DEFINITION. One step: what `fetch` says runs next, run by `exec`. -/

namespace Sys2Proof.Machine

/-- One atomic step of the machine (R443), the host's actions among them. -/
def step (s : State) : Host.Outcome State Fault Refusal :=
  match fetch s with
  | .run i s' => exec i s'
  | .reply o => o

/-- `s` with the instruction of a table word placed where `step` takes its next instruction from
(notes/assumptions/2.md). -/
def State.withFetchWord (s : State) (nbits w : Nat) : State := placeFetchWord s nbits w

end Sys2Proof.Machine
end

