-- ==== Sys2Proof/Safety.lean ====
section
/-! DEFINITION. The terms the claims use: the end of a run and its observation (R405), the frame of a decoder (R200), and
the invariants of the machine (R31, R35, R51, R80, R317, R322, R325). -/

namespace Sys2Proof.Machine

/-! ### The end of a run -/

/-- A run launched by an accepted CONVERT has ended (R405). -/
def State.ended (s : State) : Prop :=
  s.seq.step = .idle ∧ s.status.busy = false ∧ s.status.done = true ∧ s.fault = none

/-- What a run shows the host (R405). -/
structure Observation where
  status : Word
  levelStatus : Vector LevelCode 16
  hdr : Vector Byte 148
  out : List OutImage
  deriving DecidableEq, Repr

/-- The observation of a run (R405). -/
def State.observation (s : State) : Observation := ⟨statusWord s.status, s.levelStatus, s.hdr, s.out⟩

/-! ### The frame of a decoder -/

/-- `t` differs from `s` only in what a block decoder may write (R200): the datapath registers, PAL, ARAMP, the flags,
the canvas, FAULT, and PIX. -/
def decoderFrame (s t : State) : Prop :=
  t = { s with
    dp := t.dp
    pal := t.pal
    aramp := t.aramp
    flags := t.flags
    canvas := t.canvas
    fault := t.fault
    seq := { s.seq with pix := t.seq.pix } }

/-- `i` is the storage index of one of the 16 pixels of the tile at (ox, oy) (R18, R291). -/
def inTile (c : Canvas) (ox oy i : Nat) : Prop :=
  ∃ p : Fin 16, i = storageIndex c (ox + p.val % 4) (oy + p.val / 4)

/-! ### The invariant of the machine -/

/-- IN holds a byte at every address below IN_LEN (R80, R402). -/
def inCovered (s : State) : Prop := ∀ a, a < s.inLen.toNat → (lookupCell s.inMem a).isSome = true

/-- The canvas has the size it was made with, at least 1 by 1, and its written cells are cells of it (R51, R290). -/
def canvasSound (c : Canvas) : Prop :=
  Cells.wf c.cells = true ∧ 1 ≤ c.width ∧ 1 ≤ c.height ∧ ∀ p ∈ c.cells, p.1 < c.width * c.height

/-- The level registers and the canvas of a level that passed the checks R314 to R318. -/
structure LevelReady (s : State) : Prop where
  level : s.seq.level.val < 16
  canvas : ∃ c, s.canvas = some c ∧ c.width = s.lvl.curW ∧ c.height = s.lvl.curH
  nbx : s.lvl.nbx = s.lvl.curW / 4
  nby : s.lvl.nby = s.lvl.curH / 4
  bs : s.lvl.bs = blockSize s.lvl.variant
  slice : s.lvl.sliceBase + s.lvl.sliceLen ≤ s.inLen.toNat
  payload : s.lvl.nbx * s.lvl.nby * s.lvl.bs ≤ s.lvl.sliceLen
  fileSize : 122 + 4 * s.lvl.curW * s.lvl.curH ≤ 2 ^ 32 - 1
  whole : s.params.dimPolicy = .fail → s.lvl.curW % 4 = 0 ∧ s.lvl.curH % 4 = 0

/-- The invariant every step keeps: no fault is ever set, IN is canonical and covered while BUSY, BUSY is "STEP is not
IDLE", a canvas exists only from SETUP to NEXT, and a level under way has passed its checks. -/
structure Inv (s : State) : Prop where
  memWf : Memory.wf s.inMem = true
  noFault : s.fault = none
  noIssue : s.issue = none
  busy : s.status.busy = true ↔ s.seq.step ≠ .idle
  covered : s.status.busy = true → inCovered s
  pix : s.seq.pix = 0
  canvasLife : s.canvas ≠ none → s.seq.step = .decode ∨ s.seq.step = .emit ∨ s.seq.step = .nextLevel
  canvasSound : ∀ c, s.canvas = some c → canvasSound c
  decoding : s.seq.step = .decode → LevelReady s ∧ s.seq.block ≤ s.lvl.nbx * s.lvl.nby
  emitting : s.seq.step = .emit → LevelReady s
  levelDone : s.seq.step = .nextLevel → s.seq.level.val < 16

/-! ### The accounting of levels -/

/-- The number of LEVEL_STATUS entries a test holds for. -/
def levelCount (s : State) (p : LevelCode → Bool) : Nat := s.levelStatus.toList.countP p

/-- The counters of STATUS, LEVEL_STATUS and OUT agree (R35, R52, R100, R327, R380). -/
structure Accounting (s : State) : Prop where
  visited : s.status.levelsVisited.toNat = levelCount s (fun c => decide (c ≠ .notRun))
  emitted : s.status.levelsEmitted.toNat = levelCount s (fun c => decide (c = .ok))
  images : s.out.length = levelCount s (fun c => decide (c = .ok))
  increasing : (s.out.map OutImage.level).Pairwise (· < ·)
  imageOk : ∀ img ∈ s.out, ∃ h : img.level < 16, s.levelStatus[img.level] = .ok
  notStarted : s.seq.step = .parse → ∀ i : Fin 16, s.levelStatus[i] = .notRun
  ahead : s.seq.step = .setup ∨ s.seq.step = .decode ∨ s.seq.step = .emit →
    ∀ i : Fin 16, s.seq.level.val ≤ i.val → s.levelStatus[i] = .notRun
  done : s.seq.step = .nextLevel → ∀ i : Fin 16, s.seq.level.val < i.val → s.levelStatus[i] = .notRun
  oneLevel : s.runAll = false → s.seq.step ≠ .idle → s.seq.level = 0

/-! ### Coverage of the canvas -/

/-- Every pixel of the first `k` blocks of the level has been written (R319, R320). -/
def blocksWritten (s : State) (k : Nat) : Prop :=
  ∀ j, j < k → ∀ p : Fin 16, ∀ c, s.canvas = some c →
    (lookupCell c.cells (storageIndex c (blockX s.lvl j + p.val % 4) (blockY s.lvl j + p.val / 4))).isSome = true

/-- Every pixel right of the block grid or below it is UNWRITTEN (R328). -/
def marginsUnwritten (s : State) : Prop :=
  ∀ c x y, s.canvas = some c → x < c.width → y < c.height → (4 * s.lvl.nbx ≤ x ∨ 4 * s.lvl.nby ≤ y) →
    lookupCell c.cells (storageIndex c x y) = none

/-- DECODE has written the blocks before BLOCK, EMIT starts with every block written (R100(a), R325, R440), and neither
has a pixel outside the block grid (R328). -/
structure Coverage (s : State) : Prop where
  decoding : s.seq.step = .decode → blocksWritten s s.seq.block
  emitting : s.seq.step = .emit → blocksWritten s (s.lvl.nbx * s.lvl.nby)
  margins : s.seq.step = .decode ∨ s.seq.step = .emit → marginsUnwritten s

/-! ### The bound on a run -/

/-- The steps of the level `i` of a run: SETUP, one DECODE per block and one more, EMIT, NEXT (R444). -/
def levelSteps (h : Vector Byte 148) (i : Nat) : Nat :=
  4 + hdrWidth h / 2 ^ i / 4 * (hdrHeight h / 2 ^ i / 4)

/-- The bound of R444 from the SETUP of level `i` on: the levels `i` to 15, the terminating SETUP and END. -/
def stepsFrom (h : Vector Byte 148) (i : Nat) : Nat :=
  ((List.range (16 - i)).map fun j => levelSteps h (i + j)).sum + 2

end Sys2Proof.Machine
end

