-- ==== Sys2Proof/Certificates/Slice0/Obligations.lean ====
section
/-! DEFINITION. The statements for the provers, from the numbered rules of spec/. -/

open Sys2Proof Sys2Proof.Machine

/-! ### Terms of the statements, written from the rules and not from the model's own definitions -/

/-- One lane of the four-colour ramp (R204): entries 0 to 3 from the endpoints' lanes `x` and `y`. -/
def Sys2Proof.Claims.lane4 (e : Fin 4 → Nat) (x y : Nat) : Prop :=
  e 0 = x ∧ e 1 = y ∧ e 2 = (2 * x + y) / 3 ∧ e 3 = (x + 2 * y) / 3

/-- T3(L) of R205 for each value of BC1_T3_RGB. -/
def Sys2Proof.Claims.t3 (t : T3Rgb) (x y : Nat) : Nat :=
  if t = .zero then 0 else if t = .average then (x + y) / 2 else (x + 2 * y) / 3

/-- One lane of the three-colour ramp (R205). -/
def Sys2Proof.Claims.lane3 (t : T3Rgb) (e : Fin 4 → Nat) (x y : Nat) : Prop :=
  e 0 = x ∧ e 1 = y ∧ e 2 = (x + y) / 2 ∧ e 3 = Sys2Proof.Claims.t3 t x y

/-- The channels of a 5:6:5 colour (R132): red in bits 15:11, green in 10:5, blue in 4:0. -/
def Sys2Proof.Claims.red (c : BitVec 16) : Nat := c.toNat / 2 ^ 11
def Sys2Proof.Claims.green (c : BitVec 16) : Nat := c.toNat / 2 ^ 5 % 2 ^ 6
def Sys2Proof.Claims.blue (c : BitVec 16) : Nat := c.toNat % 2 ^ 5

/-- Every lane of PAL follows a lane rule from the channels of the endpoints. -/
def Sys2Proof.Claims.palFollows (rule : (Fin 4 → Nat) → Nat → Nat → Prop) (pal : Vector PalEntry 4)
    (c0 c1 : BitVec 16) : Prop :=
  rule (fun k => pal[k].r.toNat) (Sys2Proof.Claims.red c0) (Sys2Proof.Claims.red c1)
    ∧ rule (fun k => pal[k].g.toNat) (Sys2Proof.Claims.green c0) (Sys2Proof.Claims.green c1)
    ∧ rule (fun k => pal[k].b.toNat) (Sys2Proof.Claims.blue c0) (Sys2Proof.Claims.blue c1)

/-- The 7-step alpha ramp of R262. -/
def Sys2Proof.Claims.sevenStep (e : Fin 8 → Nat) (a0 a1 : Nat) : Prop :=
  e 0 = a0 ∧ e 1 = a1 ∧ ∀ k : Fin 8, 2 ≤ k.val → e k = (a0 * (8 - k.val) + a1 * (k.val - 1)) / 7

/-- The 5-step alpha ramp of R262. -/
def Sys2Proof.Claims.fiveStep (e : Fin 8 → Nat) (a0 a1 : Nat) : Prop :=
  e 0 = a0 ∧ e 1 = a1 ∧ (∀ k : Fin 8, 2 ≤ k.val → k.val ≤ 5 → e k = (a0 * (6 - k.val) + a1 * (k.val - 1)) / 5)
    ∧ e 6 = 0x00 ∧ e 7 = 0xFF

/-- The 2-bit colour index of pixel `p` (R129), the 4-bit alpha nibble (R130), the 3-bit alpha index (R133). -/
def Sys2Proof.Claims.ci (csel p : Nat) : Nat := csel / 4 ^ p % 4
def Sys2Proof.Claims.an (afield p : Nat) : Nat := afield / 16 ^ p % 16
def Sys2Proof.Claims.ai (afield p : Nat) : Nat := afield / 2 ^ 16 / 8 ^ p % 8

/-- Canvas cell `i` of a state holds the pixel word of palette entry `e` with alpha `a` (R131). -/
def Sys2Proof.Claims.cellIs (t : State) (i : Nat) (e : PalEntry) (a : Nat) : Prop :=
  ∃ v, t.canvasCell i = some v ∧ v.toNat = a * 2 ^ 16 + e.r.toNat * 2 ^ 11 + e.g.toNat * 2 ^ 5 + e.b.toNat

/-- The canvas keeps its size and every cell outside the 4 by 4 tile at (ox, oy). -/
def Sys2Proof.Claims.onlyTileWritten (c : Canvas) (t : State) (ox oy : Nat) : Prop :=
  ∃ c', t.canvas = some c' ∧ c'.width = c.width ∧ c'.height = c.height
    ∧ ∀ i, ¬ inTile c ox oy i → lookupCell c'.cells i = lookupCell c.cells i

/-- The storage index of pixel `p` of the tile at (ox, oy) (R18, R291). -/
def Sys2Proof.Claims.pixelCell (c : Canvas) (ox oy : Nat) (p : Fin 16) : Nat :=
  (c.height - 1 - (oy + p.val / 4)) * c.width + (ox + p.val % 4)

/-- The machine can run an engine operation and the 4 by 4 tile at (ox, oy) lies inside the canvas `c`. -/
def Sys2Proof.Claims.tileFits (s : State) (c : Canvas) (ox oy : Nat) : Prop :=
  s.fault = none ∧ s.canvas = some c ∧ ox + 3 < c.width ∧ oy + 3 < c.height

/-- The level error entry (R383) at the current level on a state. -/
def Sys2Proof.Claims.errorEntry (s : State) (code : LevelCode) (h : s.seq.level.val < 16) : State :=
  { s with
    levelStatus := s.levelStatus.set s.seq.level.val code h
    status := { s.status with levelsVisited := s.status.levelsVisited + 1 }
    canvas := none
    seq := { s.seq with step := .nextLevel } }

/-- The level registers of R313 for a header, a level and a variant. -/
def Sys2Proof.Claims.regsFor (h : Vector Byte 148) (i : Nat) (v : Variant) (bs : Nat) : Lvl where
  curW := hdrWidth h / 2 ^ i
  curH := hdrHeight h / 2 ^ i
  variant := v
  bs := bs
  nbx := hdrWidth h / 2 ^ i / 4
  nby := hdrHeight h / 2 ^ i / 4
  sliceBase := mipOffset h i
  sliceLen := mipLength h i

/-- The header says which decoder: textureType = 1, compression = 2 and the variant's alphaType (R152). -/
def Sys2Proof.Claims.headerVariant (h : Vector Byte 148) (v : Variant) : Prop :=
  hdrField h 4 4 = 1 ∧ hdrField h 8 1 = 2
    ∧ hdrField h 10 1 = (match v with | .bc1 => 0 | .bc2 => 1 | .bc3 => 7)

open Sys2Proof.Claims

/-! ### Encodings and the step -/

/-- Decoding the bytes of a well-formed instruction gives it back, with whatever bytes follow. The operand words of the
decoders and of CANVAS_WRITE are the model's (notes/assumptions/8.md). -/
def Obligations.DecodeOfEncodeIsTheInstruction : Prop :=
  ∀ (i : Instr) (rest : List Byte), i.wf = true → decode i.format (encode i ++ rest) = .ok (i, rest)

/-- R150: a CMD word decodes on OP = CMD[3:0], CONVERT takes ALL = CMD[8], OP 2 to 15 are reserved, and no other bit
matters. -/
def Obligations.CommandWordDecodesOnOp : Prop :=
  ∀ w : Word,
    (w.toNat % 16 = 0 → decode .cmd (leBytes 4 w.toNat) = .ok (.nop, []))
      ∧ (w.toNat % 16 = 1 →
          decode .cmd (leBytes 4 w.toNat) = .ok (.convert (decide (w.toNat / 2 ^ 8 % 2 = 1)), []))
      ∧ (2 ≤ w.toNat % 16 →
          decode .cmd (leBytes 4 w.toNat) = .error (.reservedOp (BitVec.ofNat 4 (w.toNat % 16))))

/-- R152: the header fields that select a decoder are exactly the three rows, and every other value selects none. -/
def Obligations.VariantSelectorIsTheThreeRows : Prop :=
  ∀ (t : BitVec 32) (c a : Byte),
    (∀ v, variantOf (vselOf t c a) = some v ↔
        t = 1 ∧ c = 2 ∧ a = (match v with | .bc1 => 0 | .bc2 => 1 | .bc3 => 7))
      ∧ (variantOf (vselOf t c a) = none ↔ t ≠ 1 ∨ c ≠ 2 ∨ (a ≠ 0 ∧ a ≠ 1 ∧ a ≠ 7))
      ∧ (vselOf t c a).toNat = t.toNat * 2 ^ 16 + c.toNat * 2 ^ 8 + a.toNat

/-- The words of the table's rows, written out from R150, R151 and R152, decode to their instructions. The widths of
the words, the zero operands and that code 0 decodes to nothing are the model's choice (notes/assumptions/8.md). -/
def Obligations.TableWordsDecodeToTheirRows : Prop :=
  decodeTableWord 32 0x00000000 = some .nop ∧ decodeTableWord 32 0x00000101 = some (.convert true)
    ∧ decodeTableWord 8 1 = some .parse ∧ decodeTableWord 8 5 = some .nextLevel
    ∧ decodeTableWord 48 0x000000010207 = some (.decodeBc3 0 0 0) ∧ decodeTableWord 8 0 = none
    ∧ decodeTableWord 32 0x00000005 = none ∧ decodeTableWord 48 0x000000010208 = none

/-- When the host's next action is a write to CMD whose bytes decode to an instruction, the step is that instruction
run with the action taken off the script. The script is the model's (notes/assumptions/2.md). -/
def Obligations.StepRunsTheDecodedCommand : Prop :=
  ∀ (s : State) (w : Word) (rest : List HostEvent) (i : Instr) (bs : List Byte),
    s.issue = none → s.host = .write 0x000 4 w :: rest → decode .cmd (leBytes 4 w.toNat) = .ok (i, bs) →
      step s = exec i { s with host := rest }

/-- When the host passes, or does nothing more, the step runs the instruction whose code STEP holds (R151); in IDLE a
machine without a fault stays as it is (R398). The script is the model's (notes/assumptions/2.md). -/
def Obligations.StepRunsTheSequencerStep : Prop :=
  ∀ (s s' : State) (i : Instr), s.issue = none →
    ((s.host = [] ∧ s' = s) ∨ ∃ rest, s.host = .pass :: rest ∧ s' = { s with host := rest }) →
      (instrStep i = some s.seq.step → step s = exec i s')
        ∧ (s.seq.step = .idle → s.fault = none → step s = .next s')

/-- The word of any instruction, placed by `withFetchWord`, is what the very next step runs: a command on the state as
it was, a sequencer step with STEP at it, a unit's operation on the state as it was, each with FAULT none. What is
placed is the model's choice (notes/assumptions/2.md and 6.md). -/
def Obligations.WithFetchWordRunsTheInstruction : Prop :=
  ∀ (s : State) (nbits w : Nat) (i : Instr), decodeTableWord nbits w = some i →
    step (s.withFetchWord nbits w) =
      exec i (match instrStep i with
        | some x => { s with issue := none, fault := none, seq := { s.seq with step := x } }
        | none => { s with issue := none, fault := none })

/-! ### Host commands -/

/-- R311: a CMD write with OP = 0 has no effect, whatever its other bits, and the instruction NOP answers the state it
is given. -/
def Obligations.NopHasNoEffect : Prop :=
  (∀ s : State, exec .nop s = .next s) ∧
    ∀ (s : State) (w : Word) (rest : List HostEvent), s.issue = none → s.host = .write 0x000 4 w :: rest →
      w.toNat % 16 = 0 → step s = .next { s with host := rest }

/-- CONVERT accepted (R310): every field it writes, and no other. That the datapath registers are UNWRITTEN again is
the model's reading (notes/assumptions/12.md). Where the parameters and IN are checked is the model's choice
(notes/assumptions/15.md). -/
def Obligations.ConvertStartsARun : Prop :=
  ∀ (s : State) (all : Bool), s.fault = none → s.status.busy = false → s.params.legal = true → inDuty s = true →
    exec (.convert all) s = .next { s with
      runAll := all
      status := { busy := true, done := false, badCmd := false, fatal := .none, levelsVisited := 0, levelsEmitted := 0 }
      levelStatus := Vector.replicate 16 .notRun
      hdr := Vector.replicate 148 0
      out := []
      seq := { step := .parse, level := 0, block := 0, pix := 0 }
      dp := { c0 := none, c1 := none, csel := none, afield := none } }

/-- CONVERT while BUSY is ignored (R310), CONVERT in a faulted machine has no step, and a run with an illegal parameter
or a broken duty on IN is refused (R9, R392, R402). Checking them at CONVERT is the model's choice
(notes/assumptions/15.md). -/
def Obligations.ConvertIgnoredStoppedOrRefused : Prop :=
  ∀ (s : State) (all : Bool),
    (∀ f, s.fault = some f → exec (.convert all) s = .fault f)
      ∧ (s.fault = none → s.status.busy = true → exec (.convert all) s = .next s)
      ∧ (s.fault = none → s.status.busy = false → s.params.legal = false →
          exec (.convert all) s = .refused .param)
      ∧ (s.fault = none → s.status.busy = false → s.params.legal = true → inDuty s = false →
          exec (.convert all) s = .refused .host)

/-- A CMD write with a reserved OP sets STATUS.BADCMD and changes nothing else (R150, R35), while BUSY and in a faulted
machine too. That R390 and R441, which call a CMD write while BUSY ignored, speak of CONVERT is the model's reading
(notes/assumptions/9.md); that a faulted machine takes the write is notes/assumptions/20.md. -/
def Obligations.ReservedOpSetsBadCmdOnly : Prop :=
  ∀ (s : State) (w : Word) (rest : List HostEvent), s.issue = none → s.host = .write 0x000 4 w :: rest →
    2 ≤ w.toNat % 16 → step s = .next { s with host := rest, status := { s.status with badCmd := true } }

/-! ### The header parser -/

/-- PARSE of a good header (R183): the 148 bytes of IN are latched, LEVEL is 0, SETUP is next, and nothing else
changes. -/
def Obligations.ParseLatchesTheHeader : Prop :=
  ∀ (s : State) (bs : List Byte), s.fault = none → 148 ≤ s.inLen.toNat → inRead s 0 4 = some 0x32504C42 →
    inReadBytes s 0 148 = some bs →
      ∃ t, exec .parse s = .next t
        ∧ t = { s with hdr := t.hdr, seq := { s.seq with step := .setup, level := 0 } }
        ∧ ∀ k : Fin 148, bs[k.val]? = some t.hdr[k]

/-- PARSE of a bad header (R183, R384, R385): BAD_MAGIC when fewer than 4 bytes exist or the magic differs, else
HEADER_TRUNCATED under 148 bytes; each sets STATUS.FATAL and goes to END, and changes nothing else. -/
def Obligations.ParseRejectsABadHeader : Prop :=
  ∀ s : State, s.fault = none →
    ((s.inLen.toNat < 4 ∨ ∃ m, inRead s 0 4 = some m ∧ m ≠ 0x32504C42) →
        exec .parse s = .next { s with
          status := { s.status with fatal := .badMagic }, seq := { s.seq with step := .endRun } })
      ∧ (inRead s 0 4 = some 0x32504C42 → s.inLen.toNat < 148 →
        exec .parse s = .next { s with
          status := { s.status with fatal := .headerTruncated }, seq := { s.seq with step := .endRun } })

/-- R181: after a successful parse every header field has the value InRead gives at its offset. -/
def Obligations.ParsedFieldsAreTheBytesOfIn : Prop :=
  ∀ s t : State, exec .parse s = .next t → t.seq.step = .setup → t.fault = none →
    inRead s 0 4 = some 0x32504C42
      ∧ inRead s 0 4 = some (hdrField t.hdr 0 4)
      ∧ inRead s 4 4 = some (hdrTextureType t.hdr)
      ∧ inRead s 8 1 = some (hdrByte t.hdr 8).toNat
      ∧ inRead s 9 1 = some (hdrByte t.hdr 9).toNat
      ∧ inRead s 10 1 = some (hdrByte t.hdr 10).toNat
      ∧ inRead s 11 1 = some (hdrByte t.hdr 11).toNat
      ∧ inRead s 12 4 = some (hdrWidth t.hdr)
      ∧ inRead s 16 4 = some (hdrHeight t.hdr)
      ∧ ∀ i : Fin 16, inRead s (20 + 4 * i.val) 4 = some (mipOffset t.hdr i.val)
          ∧ inRead s (84 + 4 * i.val) 4 = some (mipLength t.hdr i.val)

/-- R184: only PARSE raises a fatal error, and otherwise STATUS.FATAL changes only by a CONVERT, to NONE. -/
def Obligations.OnlyParseRaisesAFatalError : Prop :=
  ∀ (i : Instr) (s t : State), exec i s = .next t → t.status.fatal ≠ s.status.fatal →
    i = .parse ∨ ((∃ all, i = .convert all) ∧ t.status.fatal = .none)

/-! ### The block decoders -/

/-- DECODE_BC1 (R210, R202 to R206): the operands loaded, MODE4, the palette in both modes, the 16 pixels, and nothing
else. PIX is 0 after the block (notes/assumptions/13.md). That PAL's field A stays is notes/assumptions/10.md. -/
def Obligations.DecodeBc1ResolvesItsBlock : Prop :=
  ∀ (s : State) (c : Canvas) (a ox oy n0 n1 n2 : Nat), tileFits s c ox oy →
    inRead s a 2 = some n0 → inRead s (a + 2) 2 = some n1 → inRead s (a + 4) 4 = some n2 →
      ∃ t, exec (.decodeBc1 a ox oy) s = .next t
        ∧ t = { s with
            dp := { s.dp with
              c0 := some (BitVec.ofNat 16 n0), c1 := some (BitVec.ofNat 16 n1), csel := some (BitVec.ofNat 32 n2) }
            flags := { s.flags with mode4 := decide (n0 > n1) }
            pal := t.pal
            canvas := t.canvas
            seq := { s.seq with pix := 0 } }
        ∧ (n0 > n1 → palFollows lane4 t.pal (BitVec.ofNat 16 n0) (BitVec.ofNat 16 n1))
        ∧ (n0 ≤ n1 → palFollows (lane3 s.params.bc1T3Rgb) t.pal (BitVec.ofNat 16 n0) (BitVec.ofNat 16 n1))
        ∧ (∀ k : Fin 4, t.pal[k].a = s.pal[k].a)
        ∧ (∀ (p : Fin 16) (k : Fin 4), ci n2 p.val = k.val →
            cellIs t (pixelCell c ox oy p) t.pal[k] (if n0 ≤ n1 ∧ k = 3 then 0x00 else 0xFF))
        ∧ onlyTileWritten c t ox oy

/-- DECODE_BC2 (R240 to R245): always four colours, the nibble alpha in both halves, the 16 pixels, and nothing else.
PAL's field A and PIX are as notes/assumptions/10.md and 13.md say. -/
def Obligations.DecodeBc2ResolvesItsBlock : Prop :=
  ∀ (s : State) (c : Canvas) (a ox oy nf n0 n1 n2 : Nat), tileFits s c ox oy →
    inRead s a 8 = some nf → inRead s (a + 8) 2 = some n0 → inRead s (a + 10) 2 = some n1 →
    inRead s (a + 12) 4 = some n2 →
      ∃ t, exec (.decodeBc2 a ox oy) s = .next t
        ∧ t = { s with
            dp := {
              c0 := some (BitVec.ofNat 16 n0), c1 := some (BitVec.ofNat 16 n1), csel := some (BitVec.ofNat 32 n2)
              afield := some (BitVec.ofNat 64 nf) }
            flags := { s.flags with mode4 := true }
            pal := t.pal
            canvas := t.canvas
            seq := { s.seq with pix := 0 } }
        ∧ palFollows lane4 t.pal (BitVec.ofNat 16 n0) (BitVec.ofNat 16 n1)
        ∧ (∀ k : Fin 4, t.pal[k].a = s.pal[k].a)
        ∧ (∀ (p : Fin 16) (k : Fin 4), ci n2 p.val = k.val →
            cellIs t (pixelCell c ox oy p) t.pal[k] (an nf p.val + an nf p.val * 2 ^ 4))
        ∧ onlyTileWritten c t ox oy

/-- DECODE_BC3 (R260 to R265): always four colours, the alpha ramp in both modes, the 16 pixels, and nothing else.
PAL's field A and PIX are as notes/assumptions/10.md and 13.md say. -/
def Obligations.DecodeBc3ResolvesItsBlock : Prop :=
  ∀ (s : State) (c : Canvas) (a ox oy nf n0 n1 n2 : Nat), tileFits s c ox oy →
    inRead s a 8 = some nf → inRead s (a + 8) 2 = some n0 → inRead s (a + 10) 2 = some n1 →
    inRead s (a + 12) 4 = some n2 →
      ∃ t, exec (.decodeBc3 a ox oy) s = .next t
        ∧ t = { s with
            dp := {
              c0 := some (BitVec.ofNat 16 n0), c1 := some (BitVec.ofNat 16 n1), csel := some (BitVec.ofNat 32 n2)
              afield := some (BitVec.ofNat 64 nf) }
            flags := { mode4 := true, amode7 := decide (nf % 256 > nf / 256 % 256) }
            pal := t.pal
            aramp := t.aramp
            canvas := t.canvas
            seq := { s.seq with pix := 0 } }
        ∧ palFollows lane4 t.pal (BitVec.ofNat 16 n0) (BitVec.ofNat 16 n1)
        ∧ (∀ k : Fin 4, t.pal[k].a = s.pal[k].a)
        ∧ (nf % 256 > nf / 256 % 256 → sevenStep (fun k => t.aramp[k].toNat) (nf % 256) (nf / 256 % 256))
        ∧ (nf % 256 ≤ nf / 256 % 256 → fiveStep (fun k => t.aramp[k].toNat) (nf % 256) (nf / 256 % 256))
        ∧ (∀ (p : Fin 16) (k : Fin 4) (j : Fin 8), ci n2 p.val = k.val → ai nf p.val = j.val →
            cellIs t (pixelCell c ox oy p) t.pal[k] t.aramp[j].toNat)
        ∧ onlyTileWritten c t ox oy

/-- R211: a BC1 block with c0 = c1 is in 3-colour mode and PAL[0..2] equal c0's channels; a pixel with index 0, 1 or 2
is 0x00FF0000 | c0, and one with index 3 has alpha 0 and colour T3, which is c0 unless BC1_T3_RGB is ZERO, and then
0. -/
def Obligations.Bc1EqualEndpointsAreThreeColour : Prop :=
  ∀ (s t : State) (c : Canvas) (a ox oy n n2 : Nat), tileFits s c ox oy →
    inRead s a 2 = some n → inRead s (a + 2) 2 = some n → inRead s (a + 4) 4 = some n2 →
    exec (.decodeBc1 a ox oy) s = .next t →
      t.flags.mode4 = false
        ∧ (∀ k : Fin 4, k.val ≤ 2 → t.pal[k].r.toNat = red (BitVec.ofNat 16 n)
          ∧ t.pal[k].g.toNat = green (BitVec.ofNat 16 n) ∧ t.pal[k].b.toNat = blue (BitVec.ofNat 16 n))
        ∧ ∀ p : Fin 16,
          (ci n2 p.val ≠ 3 → t.canvasCell (pixelCell c ox oy p) = some (BitVec.ofNat 32 (0x00FF0000 + n)))
            ∧ (ci n2 p.val = 3 → t.canvasCell (pixelCell c ox oy p)
                = some (BitVec.ofNat 32 (if s.params.bc1T3Rgb = .zero then 0 else n)))

/-- R266: with a0 = a1 the 5-step branch is taken, ARAMP[0..5] equal a0, ARAMP[6] = 0 and ARAMP[7] = 255. -/
def Obligations.Bc3EqualAlphasTakeFiveSteps : Prop :=
  ∀ (s t : State) (c : Canvas) (a ox oy nf n0 n1 n2 : Nat), tileFits s c ox oy →
    inRead s a 8 = some nf → inRead s (a + 8) 2 = some n0 → inRead s (a + 10) 2 = some n1 →
    inRead s (a + 12) 4 = some n2 → nf % 256 = nf / 256 % 256 → exec (.decodeBc3 a ox oy) s = .next t →
      t.flags.amode7 = false ∧ (∀ k : Fin 8, k.val ≤ 5 → t.aramp[k].toNat = nf % 256)
        ∧ t.aramp[(6 : Fin 8)] = 0 ∧ t.aramp[(7 : Fin 8)] = 255

/-- R201: what a decoder stores depends only on the block's bytes and BC1_T3_RGB. Two machines with the same canvas,
the same parameter and the same bytes at the block end with the same canvas, whatever else they hold. -/
def Obligations.DecoderResultDependsOnBlockBytesOnly : Prop :=
  ∀ (v : Variant) (s s' t t' : State) (a a' ox oy : Nat) (bs : List Byte),
    s.params.bc1T3Rgb = s'.params.bc1T3Rgb → s.canvas = s'.canvas →
    inReadBytes s a (blockSize v) = some bs → inReadBytes s' a' (blockSize v) = some bs →
    exec (decoderInstr v a ox oy) s = .next t → exec (decoderInstr v a' ox oy) s' = .next t' →
      t.canvas = t'.canvas ∧ t.fault = t'.fault

/-- R15, R392: a decoder whose block does not lie below IN_LEN sets FAULT_IN_BOUNDS and writes no canvas cell. That a
fault is a next state with the mark is notes/assumptions/20.md. -/
def Obligations.BlockPastInLenFaults : Prop :=
  ∀ (v : Variant) (s : State) (a ox oy : Nat), s.fault = none → s.inLen.toNat < a + blockSize v →
    ∃ t, exec (decoderInstr v a ox oy) s = .next t ∧ t.fault = some .inBounds ∧ t.canvas = s.canvas

/-! ### The canvas writer -/

/-- CANVAS_WRITE inside the canvas (R291, R292): the cell (H-1-y)*W + x takes the word, every other cell and everything
else stays. -/
def Obligations.CanvasWriteStoresOneCell : Prop :=
  ∀ (s : State) (c : Canvas) (x y : Nat) (v : Word), s.fault = none → s.canvas = some c → x < c.width →
    y < c.height →
      ∃ c', exec (.canvasWrite x y v) s = .next { s with canvas := some c' }
        ∧ c'.width = c.width ∧ c'.height = c.height
        ∧ lookupCell c'.cells ((c.height - 1 - y) * c.width + x) = some v
        ∧ ∀ i, i ≠ (c.height - 1 - y) * c.width + x → lookupCell c'.cells i = lookupCell c.cells i

/-- CANVAS_WRITE out of range (R293): FAULT_CANVAS_BOUNDS, and nothing else changes; the faulted machine then has no
step of the engine. That no canvas counts as out of range is notes/assumptions/16.md, and which operations the faulted
machine still has is notes/assumptions/20.md. -/
def Obligations.CanvasWriteOutOfRangeFaults : Prop :=
  ∀ (s : State) (x y : Nat) (v : Word), s.fault = none →
    (∀ c, s.canvas = some c → c.width ≤ x ∨ c.height ≤ y) →
      exec (.canvasWrite x y v) s = .next { s with fault := some .canvasBounds }
        ∧ ∀ i : Instr, i ≠ .nop → exec i { s with fault := some .canvasBounds } = .fault .canvasBounds

/-- R294: row 0 lands in the last stored row and row H-1 in the first, for every valid x. -/
def Obligations.CanvasIsFlippedVertically : Prop :=
  ∀ (s : State) (c : Canvas) (x : Nat) (v : Word), s.fault = none → s.canvas = some c → x < c.width →
    1 ≤ c.height →
      (∃ t, exec (.canvasWrite x 0 v) s = .next t ∧ t.canvasCell ((c.height - 1) * c.width + x) = some v)
        ∧ ∃ t, exec (.canvasWrite x (c.height - 1) v) s = .next t ∧ t.canvasCell x = some v

/-- R295: the translation is a bijection from the coordinates of the canvas onto its storage indices. -/
def Obligations.CanvasTranslationIsABijection : Prop :=
  ∀ (c : Canvas),
    (∀ x y, x < c.width → y < c.height → storageIndex c x y < c.width * c.height)
      ∧ ∀ i, i < c.width * c.height →
          ∃ x y, (x < c.width ∧ y < c.height ∧ storageIndex c x y = i)
            ∧ ∀ x' y', x' < c.width → y' < c.height → storageIndex c x' y' = i → x' = x ∧ y' = y

/-! ### The orchestrator -/

/-- R312: SETUP at LEVEL = 16 or at an entry whose offset is 0 only goes to END, whatever the entry's length. -/
def Obligations.SetupStopsAtTheTerminator : Prop :=
  ∀ s : State, s.fault = none → (s.seq.level.val = 16 ∨ mipOffset s.hdr s.seq.level.val = 0) →
    exec .setup s = .next { s with seq := { s.seq with step := .endRun } }

/-- SETUP of a level whose header has a decoder (R313 to R318, R383, R385): the registers, then the first failing
check's error entry, or the blank canvas and DECODE. -/
def Obligations.SetupChecksALevelWithADecoder : Prop :=
  ∀ (s : State) (v : Variant) (hl : s.seq.level.val < 16), s.fault = none →
    mipOffset s.hdr s.seq.level.val ≠ 0 → headerVariant s.hdr v →
      let l := regsFor s.hdr s.seq.level.val v (blockSize v)
      let s1 := { s with lvl := l }
      exec .setup s = .next
        (if l.curW = 0 ∨ l.curH = 0 then errorEntry s1 .irregularDimensions hl
        else if s.params.dimPolicy = .fail ∧ (l.curW % 4 ≠ 0 ∨ l.curH % 4 ≠ 0) then
          errorEntry s1 .irregularDimensions hl
        else if l.sliceBase + l.sliceLen > s.inLen.toNat then errorEntry s1 .truncated hl
        else if l.nbx * l.nby * l.bs > l.sliceLen then errorEntry s1 .truncated hl
        else if 122 + 4 * l.curW * l.curH > 2 ^ 32 - 1 ∨ 4 * l.curW * l.curH > s.params.canvasCapacity then
          errorEntry s1 .allocationError hl
        else { s1 with
          canvas := some { width := l.curW, height := l.curH, cells := [] }
          seq := { s.seq with step := .decode, block := 0 } })

/-- SETUP of a level whose header has no decoder (R153, R314, R315, R382): IRREGULAR_DIMENSIONS if the dimensions
fail, else UNSUPPORTED_ENCODING. That VARIANT and BS stay is the model's reading (notes/assumptions/11.md). -/
def Obligations.SetupRejectsAnUnsupportedEncoding : Prop :=
  ∀ (s : State) (hl : s.seq.level.val < 16), s.fault = none → mipOffset s.hdr s.seq.level.val ≠ 0 →
    (∀ v, ¬ headerVariant s.hdr v) →
      let l := regsFor s.hdr s.seq.level.val s.lvl.variant s.lvl.bs
      let s1 := { s with lvl := l }
      exec .setup s = .next
        (if l.curW = 0 ∨ l.curH = 0 ∨ (s.params.dimPolicy = .fail ∧ (l.curW % 4 ≠ 0 ∨ l.curH % 4 ≠ 0)) then
          errorEntry s1 .irregularDimensions hl
        else errorEntry s1 .unsupportedEncoding hl)

/-- DECODE with every block done only goes to EMIT (R319). -/
def Obligations.DecodeGoesToEmitWhenDone : Prop :=
  ∀ s : State, s.fault = none → s.seq.block = s.lvl.nbx * s.lvl.nby →
    exec .decode s = .next { s with seq := { s.seq with step := .emit } }

/-- DECODE of a block (R319, R320, R321): the decoder of VARIANT at SLICE_BASE + BLOCK*BS with the tile's origin, then
BLOCK + 1. With NBX = 0 or BLOCK above NBX*NBY, which no run meets, this is the model's choice
(notes/assumptions/25.md). -/
def Obligations.DecodeRunsTheVariantsDecoder : Prop :=
  ∀ s t : State, s.seq.block ≠ s.lvl.nbx * s.lvl.nby →
    exec (decoderInstr s.lvl.variant (s.lvl.sliceBase + s.seq.block * s.lvl.bs) (4 * (s.seq.block % s.lvl.nbx))
      (4 * (s.seq.block / s.lvl.nbx))) s = .next t →
    t.fault = none →
      exec .decode s = .next { t with seq := { t.seq with step := .decode, block := s.seq.block + 1 } }

/-- R322: at a level that passed its checks, every block of the grid lies inside the slice and IN, its tile lies inside
the canvas, and, with IN covered, DECODE of it completes without a fault and advances BLOCK by one. That PIX is 0 after
it is the model's choice (notes/assumptions/13.md). -/
def Obligations.DecodeOfACheckedLevelNeverFaults : Prop :=
  ∀ s : State, s.fault = none → LevelReady s → inCovered s → s.seq.block < s.lvl.nbx * s.lvl.nby →
    (∀ k, k < s.lvl.nbx * s.lvl.nby →
        s.lvl.sliceBase + k * s.lvl.bs + s.lvl.bs ≤ s.lvl.sliceBase + s.lvl.nbx * s.lvl.nby * s.lvl.bs
          ∧ s.lvl.sliceBase + s.lvl.nbx * s.lvl.nby * s.lvl.bs ≤ s.lvl.sliceBase + s.lvl.sliceLen
          ∧ s.lvl.sliceBase + s.lvl.sliceLen ≤ s.inLen.toNat
          ∧ 4 * (k % s.lvl.nbx) + 3 ≤ 4 * s.lvl.nbx - 1 ∧ 4 * s.lvl.nbx - 1 ≤ s.lvl.curW - 1
          ∧ 4 * (k / s.lvl.nbx) + 3 ≤ 4 * s.lvl.nby - 1 ∧ 4 * s.lvl.nby - 1 ≤ s.lvl.curH - 1)
      ∧ ∃ t, exec .decode s = .next t ∧ t.fault = none
        ∧ t.seq = { s.seq with step := .decode, block := s.seq.block + 1, pix := 0 }

/-- R323: NEXT discards the canvas and goes to END, or, with RUN_ALL, to SETUP of the next level. -/
def Obligations.NextGoesOnOrEnds : Prop :=
  ∀ s : State, s.fault = none →
    (s.runAll = false → exec .nextLevel s = .next { s with
        canvas := none, seq := { s.seq with step := .endRun } })
      ∧ (s.runAll = true → ∀ h : s.seq.level.val < 16, exec .nextLevel s = .next { s with
        canvas := none
        seq := { s.seq with step := .setup, level := ⟨s.seq.level.val + 1, by omega⟩ } })

/-- R324: END clears BUSY, sets DONE and goes to IDLE. -/
def Obligations.EndSetsDone : Prop :=
  ∀ s : State, s.fault = none →
    exec .endRun s = .next { s with
      status := { s.status with busy := false, done := true }, seq := { s.seq with step := .idle } }

/-! ### The serializer -/

/-- EMIT answered ok (R350): the image goes to OUT whole, LEVEL_STATUS is OK, both counters advance, NEXT is next, and
nothing else of BLPDEC changes. The answer list and the draw counter are the model's (notes/assumptions/4.md and 7.md).
What the file holds where a size or a parameter does not fit its field, which no run meets, is notes/assumptions/26.md.
-/
def Obligations.EmitAcceptedQueuesTheImage : Prop :=
  ∀ (s : State) (rest : List EmitAnswer) (hl : s.seq.level.val < 16), s.fault = none →
    s.answers = .ok :: rest →
      exec .emit s = .next { s with
        out := s.out ++ [⟨s.seq.level.val, s.lvl.curW, s.lvl.curH, s.bmpFile⟩]
        levelStatus := s.levelStatus.set s.seq.level.val .ok hl
        status := { s.status with
          levelsVisited := s.status.levelsVisited + 1, levelsEmitted := s.status.levelsEmitted + 1 }
        seq := { s.seq with step := .nextLevel }
        answers := rest
        emitCount := s.emitCount + 1
        drawCount := s.drawCount + s.lvl.curW * s.lvl.curH }

/-- EMIT answered fail (R350, R383): IO_ERROR by the level error entry, and OUT stays. The answer list and the draw
counter are the model's (notes/assumptions/4.md and 7.md); the canvas goes at once (notes/assumptions/17.md). -/
def Obligations.EmitFailedIsAnIoError : Prop :=
  ∀ (s : State) (rest : List EmitAnswer) (hl : s.seq.level.val < 16), s.fault = none →
    s.answers = .fail :: rest →
      exec .emit s = .next (errorEntry { s with
        answers := rest
        emitCount := s.emitCount + 1
        drawCount := s.drawCount + s.lvl.curW * s.lvl.curH } .ioError hl)

/-- EMIT with no answer listed (R401): one of the two outcomes, for whatever answer the host gives. The free answer is
notes/assumptions/4.md. What the file holds where a size or a parameter does not fit its field, which no run meets, is
notes/assumptions/26.md. -/
def Obligations.EmitCompletesForEveryAnswer : Prop :=
  ∀ s : State, s.fault = none →
    ∃ t, exec .emit s = .next t ∧ t.seq.step = .nextLevel ∧ t.fault = none
      ∧ ((t.out = s.out ∧ t.status.levelsEmitted = s.status.levelsEmitted)
        ∨ (t.out = s.out ++ [⟨s.seq.level.val, s.lvl.curW, s.lvl.curH, s.bmpFile⟩]
            ∧ t.status.levelsEmitted = s.status.levelsEmitted + 1))
      ∧ t.status.levelsVisited = s.status.levelsVisited + 1

/-- R351: the 14 bytes of the file header at their offsets, and R352, R353: the DIB header's fields at their offsets,
for legal parameters and a size that passed R318. -/
def Obligations.BmpHeaderFieldsAreAtTheirOffsets : Prop :=
  ∀ s : State, 122 + 4 * s.lvl.curW * s.lvl.curH < 2 ^ 32 → 1 ≤ s.lvl.curW → 1 ≤ s.lvl.curH →
    s.params.legal = true →
      let at_ := fun o n => leNat ((s.bmpFile.drop o).take n)
      let size := 4 * s.lvl.curW * s.lvl.curH
      s.bmpFile.length = 122 + size
        ∧ at_ 0 2 = 0x4D42 ∧ at_ 2 4 = 122 + size ∧ at_ 6 2 = 0 ∧ at_ 8 2 = 0 ∧ at_ 10 4 = 122
        ∧ at_ 14 4 = 108 ∧ at_ 18 4 = s.lvl.curW ∧ at_ 22 4 = s.lvl.curH ∧ s.lvl.curH < 2 ^ 31
        ∧ at_ 26 2 = 1 ∧ at_ 28 2 = 32 ∧ at_ 30 4 = 3 ∧ at_ 34 4 = size
        ∧ (BitVec.ofNat 32 (at_ 38 4)).toInt = s.params.bmpXppm
        ∧ (BitVec.ofNat 32 (at_ 42 4)).toInt = s.params.bmpYppm
        ∧ at_ 46 4 = 0 ∧ at_ 50 4 = 0
        ∧ at_ 54 4 = 0x0000F800 ∧ at_ 58 4 = 0x000007E0 ∧ at_ 62 4 = 0x0000001F ∧ at_ 66 4 = 0x00FF0000
        ∧ at_ 70 4 = s.params.bmpCsType ∧ at_ 74 36 = 0 ∧ at_ 110 12 = 0

/-- R355, R356, R141: the bytes at 122 + 4s are the little-endian word of canvas cell s, for every cell in storage
order; an UNWRITTEN cell reads as a draw. The numbering of the draws is the model's (notes/assumptions/7.md), and so is
that a state without a canvas reads every cell as UNWRITTEN (notes/assumptions/16.md). -/
def Obligations.BmpPixelsAreTheCanvasInStorageOrder : Prop :=
  ∀ s : State, s.bmpFile.length = 122 + 4 * (s.lvl.curW * s.lvl.curH) ∧
    ∀ i, i < s.lvl.curW * s.lvl.curH →
      let word := leNat ((s.bmpFile.drop (122 + 4 * i)).take 4)
      (∀ v, s.canvasCell i = some v → word = v.toNat)
        ∧ (s.canvasCell i = none → word = (Config.draw (s.drawCount + i)).toNat)

/-- R358: the source's end-to-end example. A BC1 block with c0 = 0xF800, c1 = 0x001F and lookup 0 decodes to a 4 by 4
canvas of 16 pixels 0x00FFF800, and the pixel array of its BMP is 16 times 00 F8 FF 00. -/
def Obligations.RedBlockGivesSixteenRedPixels : Prop :=
  ∀ (s t : State) (c : Canvas) (a : Nat), s.canvas = some c → c.width = 4 → c.height = 4 → s.lvl.curW = 4 →
    s.lvl.curH = 4 → inRead s a 2 = some 0xF800 → inRead s (a + 2) 2 = some 0x001F → inRead s (a + 4) 4 = some 0 →
    exec (.decodeBc1 a 0 0) s = .next t →
      (∀ i, i < 16 → t.canvasCell i = some 0x00FFF800#32)
        ∧ t.bmpFile.drop 122 = (List.replicate 16 [0x00#8, 0xF8#8, 0xFF#8, 0x00#8]).flatten

/-! ### The register space and the host -/

/-- The register map (R33 to R38, R87): what a legal host read returns at each address, and 0 at any address the map
does not list. -/
def Obligations.RegisterMapReads : Prop :=
  ∀ s : State,
    regRead s 0x000 = 0
      ∧ regRead s 0x008 = s.inLen
      ∧ (regRead s 0x00C).toNat = s.seq.level.val
      ∧ (regRead s 0x010).toNat = s.seq.block % 2 ^ 32
      ∧ (∀ k : Fin 37, (regRead s (0x100 + 4 * k.val)).toNat = hdrField s.hdr (4 * k.val) 4)
      ∧ (∀ i : Fin 16, regRead s (0x200 + 4 * i.val) = (levelNumber s.levelStatus[i]).setWidth 32)
      ∧ ∀ a, 0x010 < a → (a < 0x100 ∨ 0x190 < a) → (a < 0x200 ∨ 0x240 ≤ a) → regRead s a = 0

/-- R35: the fields of the STATUS word, and its reserved bits 0. -/
def Obligations.StatusWordFields : Prop :=
  ∀ s : State, (regRead s 0x004).toNat =
    s.status.busy.toNat + 2 * s.status.done.toNat + 4 * s.status.badCmd.toNat
      + 2 ^ 4 * (match s.status.fatal with | .none => 0 | .badMagic => 1 | .headerTruncated => 2)
      + 2 ^ 8 * s.status.levelsVisited.toNat + 2 ^ 16 * s.status.levelsEmitted.toNat

/-- A host read (R93, R90, R402): a legal one changes nothing but the host's own notes; one that is not 32 bits wide at
a multiple of 4, or outside the register space, is refused. The notes are the model's (notes/assumptions/2.md);
refusing an address outside is its reading (notes/assumptions/18.md). -/
def Obligations.HostReadHasNoSideEffect : Prop :=
  ∀ (s : State) (a size : Nat) (rest : List HostEvent), s.issue = none → s.host = .read a size :: rest →
    (size = 4 → a % 4 = 0 → a < 0x300 →
        step s = .next { s with host := rest, hostReads := s.hostReads ++ [(a, regRead s a)] })
      ∧ ((size ≠ 4 ∨ a % 4 ≠ 0 ∨ 0x300 ≤ a) → step s = .refused .host)

/-- A host write that is no command (R37, R39, R93): IN_LEN takes the value while not BUSY and is left while BUSY; any
other register ignores the write; an access of the wrong width or alignment is refused. That a value above MAX_IN_LEN
is refused is the model's choice (notes/assumptions/14.md). Refusing an address outside the space is its reading
(notes/assumptions/18.md). -/
def Obligations.HostWritesReachInLenOnly : Prop :=
  ∀ (s : State) (a size : Nat) (v : Word) (rest : List HostEvent), s.issue = none →
    s.host = .write a size v :: rest →
      ((size ≠ 4 ∨ a % 4 ≠ 0 ∨ 0x300 ≤ a) → step s = .refused .host)
        ∧ (size = 4 → a % 4 = 0 → a < 0x300 → a ≠ 0x000 → a ≠ 0x008 → step s = .next { s with host := rest })
        ∧ (size = 4 → a = 0x008 → s.status.busy = true → step s = .next { s with host := rest })
        ∧ (size = 4 → a = 0x008 → s.status.busy = false → v.toNat ≤ s.params.maxInLen →
            step s = .next { s with host := rest, inLen := v })
        ∧ (size = 4 → a = 0x008 → s.status.busy = false → s.params.maxInLen < v.toNat → step s = .refused .host)

/-- Placing a file in IN (R434, R437, R402): refused while BUSY; else IN holds exactly the file's bytes from address 0,
in canonical form, and nothing else changes. The whole-file load and its bound are the model's (notes/assumptions/1.md,
2.md, 14.md and 21.md). -/
def Obligations.LoadingInIsForIdleOnly : Prop :=
  ∀ (s : State) (bs : List Byte) (rest : List HostEvent), s.issue = none → s.host = .loadIn bs :: rest →
    (s.status.busy = true → step s = .refused .host)
      ∧ (s.status.busy = false → bs.length ≤ s.params.maxInLen →
          ∃ m, step s = .next { s with host := rest, inMem := m } ∧ Memory.wf m = true
            ∧ ∀ a, lookupCell m a = bs[a]?)

/-- R55: the values the spec gives the state after reset. -/
def Obligations.ResetValuesOfTheSpec : Prop :=
  let s := State.reset
  s.seq = { step := .idle, level := 0, block := 0, pix := 0 } ∧ regRead s 0x004 = 0 ∧ s.inLen = 0
    ∧ (∀ k : Fin 148, s.hdr[k] = 0) ∧ (∀ i : Fin 16, s.levelStatus[i] = .notRun) ∧ s.canvas = none ∧ s.out = []
    ∧ s.fault = none ∧ s.runAll = false
    ∧ s.dp = { c0 := none, c1 := none, csel := none, afield := none }

/-- R430, R431: reset from any state, a running or a faulted one too, puts BLPDEC's state at the reset values and keeps
IN, the parameters and the host's own data. The values the spec leaves unspecified are notes/assumptions/5.md, and what
is kept is notes/assumptions/19.md. -/
def Obligations.HostResetFromAnyState : Prop :=
  ∀ (s : State) (rest : List HostEvent), s.issue = none → s.host = .reset :: rest →
    step s = .next { State.reset with
      params := s.params, inMem := s.inMem, host := rest, answers := s.answers, hostReads := s.hostReads
      emitCount := s.emitCount, drawCount := s.drawCount }

/-- R433: reset clears FAULT, and it is the only way out of a faulted state. -/
def Obligations.OnlyResetClearsAFault : Prop :=
  (∀ (s : State) (rest : List HostEvent), s.issue = none → s.host = .reset :: rest →
      ∃ t, step s = .next t ∧ t.fault = none)
    ∧ ∀ (s t : State) (f : Fault), s.fault = some f → step s = .next t →
      t.fault = some f ∨ ∃ rest, s.issue = none ∧ s.host = .reset :: rest

/-! ### Whole-machine rules and invariants -/

/-- R80, R12, R92: the engine never writes IN, IN_LEN or the parameters, whatever operation it runs. -/
def Obligations.EngineNeverWritesIn : Prop :=
  ∀ (i : Instr) (s t : State), exec i s = .next t →
    t.inMem = s.inMem ∧ t.inLen = s.inLen ∧ t.params = s.params ∧ t.host = s.host ∧ t.hostReads = s.hostReads

/-- R439, R52, R329, R298: HDR changes only at PARSE and CONVERT, OUT only at EMIT and CONVERT, RUN_ALL only at
CONVERT, and canvas cells only through CANVAS_WRITE, the decoders and DECODE. The canvas is discarded only by NEXT and
by the error entry of SETUP and of EMIT (R298, R323, R383; notes/assumptions/17.md). -/
def Obligations.WhoWritesHdrOutRunAllAndCanvas : Prop :=
  ∀ (i : Instr) (s t : State), exec i s = .next t →
    (t.hdr = s.hdr ∨ i = .parse ∨ ∃ all, i = .convert all)
      ∧ (t.out = s.out ∨ i = .emit ∨ ∃ all, i = .convert all)
      ∧ (t.runAll = s.runAll ∨ ∃ all, i = .convert all)
      ∧ (t.canvas = s.canvas
          ∨ (t.canvas = none ∧ (i = .nextLevel ∨ ((i = .setup ∨ i = .emit) ∧ t.seq.step = .nextLevel)))
          ∨ (i = .setup ∧ ∃ w h, t.canvas = some ⟨w, h, []⟩) ∨ i = .decode
          ∨ (∃ a ox oy v, i = decoderInstr v a ox oy) ∨ ∃ x y v, i = .canvasWrite x y v)

/-- The invariant holds after reset. Its clauses on PIX and on the issue latch are the model's (notes/assumptions/13.md
and 6.md). -/
def Obligations.ResetSatisfiesTheInvariant : Prop := Inv State.reset

/-- R322, R31, R51: from every state that satisfies the invariant, a step of the machine or of its host gives a state
that satisfies it; so no fault is ever set. Its clauses that PIX is 0 between steps and that the issue latch is empty
are the model's (notes/assumptions/13.md and 6.md). -/
def Obligations.StepKeepsTheInvariant : Prop :=
  ∀ s t : State, Inv s → step s = .next t → Inv t

/-- R444: while STEP is not IDLE and FAULT is NONE the engine has exactly one next step; under the invariant it
completes. -/
def Obligations.EngineAlwaysHasANextStep : Prop :=
  ∀ s : State, Inv s → s.host = [] → ∃ t, step s = .next t

/-- The accounting holds after reset. -/
def Obligations.ResetSatisfiesTheAccounting : Prop := Accounting State.reset

/-- R35, R52, R100(c), R327, R380: every step keeps LEVELS_VISITED, LEVELS_EMITTED, LEVEL_STATUS and OUT in
agreement, images in increasing level order, and one status per level. -/
def Obligations.StepKeepsTheAccounting : Prop :=
  ∀ s t : State, Inv s → Accounting s → step s = .next t → Accounting t

/-- R100(a), R440, R325, R328: every step keeps the blocks before BLOCK written and the pixels outside the block grid
UNWRITTEN, so EMIT starts with every block written. -/
def Obligations.StepKeepsTheCoverage : Prop :=
  ∀ s t : State, Inv s → Coverage s → step s = .next t → Coverage t

/-- R325: under DIM_POLICY = FAIL no canvas cell is UNWRITTEN at EMIT. -/
def Obligations.NoUnwrittenCellAtEmitUnderFail : Prop :=
  ∀ s : State, Inv s → Coverage s → s.seq.step = .emit → s.params.dimPolicy = .fail →
    ∀ i, i < s.lvl.curW * s.lvl.curH → (s.canvasCell i).isSome = true

/-- R444: from the SETUP of a level, with the host idle, the run ends within the steps of its remaining levels. -/
def Obligations.RunEndsWithinTheStepBound : Prop :=
  ∀ s : State, Inv s → s.host = [] → s.seq.step = .setup →
    ∃ (n : Nat) (t : State), n ≤ stepsFrom s.hdr s.seq.level.val
      ∧ Host.Core.run Sys2Proof.core n s = Host.Outcome.next t ∧ t.ended

/-- R405: every run ends, whatever step it stands at, for every answer the host gives. -/
def Obligations.EveryRunEnds : Prop :=
  ∀ s : State, Inv s → s.host = [] → s.seq.step ≠ .idle →
    ∃ (n : Nat) (t : State), Host.Core.run Sys2Proof.core n s = Host.Outcome.next t ∧ t.ended

/-- R293 with R210, R245, R265: a decoder whose block can be read and whose tile leaves the canvas stops at the first
pixel `p` outside with FAULT_CANVAS_BOUNDS. The cells of the pixels before `p` hold what the same decoder writes into a
canvas that holds the tile, every other cell stays, and the registers are those it leaves there. That the pixels before
`p` stay written with PIX at `p`, that no canvas counts as out of range, and that the fault is a next state with the
mark are the model's choices (notes/assumptions/13.md, 16.md and 20.md). -/
def Obligations.TileOutsideTheCanvasFaults : Prop :=
  ∀ (v : Variant) (s : State) (a ox oy : Nat), s.fault = none →
    (inReadBytes s a (blockSize v)).isSome = true →
      let big := blankCanvas (ox + 4) (oy + 4)
      ∃ u, exec (decoderInstr v a ox oy) { s with canvas := some big } = .next u ∧ u.fault = none
        ∧ (s.canvas = none → exec (decoderInstr v a ox oy) s = .next { u with
            canvas := none, fault := some .canvasBounds, seq := { s.seq with pix := 0 } })
        ∧ ∀ c, s.canvas = some c → (c.width ≤ ox + 3 ∨ c.height ≤ oy + 3) →
          ∃ (p : Fin 16) (c' : Canvas),
            exec (decoderInstr v a ox oy) s = .next { u with
              canvas := some c', fault := some .canvasBounds, seq := { s.seq with pix := p } }
            ∧ (c.width ≤ ox + p.val % 4 ∨ c.height ≤ oy + p.val / 4)
            ∧ (∀ q : Fin 16, q < p → ox + q.val % 4 < c.width ∧ oy + q.val / 4 < c.height)
            ∧ c'.width = c.width ∧ c'.height = c.height
            ∧ (∀ q : Fin 16, q < p →
                lookupCell c'.cells (pixelCell c ox oy q) = u.canvasCell (pixelCell big ox oy q))
            ∧ ∀ i, (∀ q : Fin 16, q < p → i ≠ pixelCell c ox oy q) → lookupCell c'.cells i = lookupCell c.cells i
end

