-- ==== Sys2Proof/Laws/Cells.lean ====
section
/-! SUPPORT. Laws of the cell lists behind IN and the canvas: a read after a write, and the canonical form. -/

namespace Sys2Proof.Machine

variable {α : Type}

/-- Reading the address just written gives the value written. -/
@[simp] theorem lookupCell_storeCell_same (m : List (Nat × α)) (a : Nat) (v : α) :
    lookupCell (storeCell m a v) a = some v := by
  induction m with
  | nil => simp [storeCell, lookupCell]
  | cons head rest ih =>
    obtain ⟨k, w⟩ := head
    by_cases h1 : a < k
    · simp [storeCell, h1, lookupCell]
    · by_cases h2 : a = k
      · simp [storeCell, h2, lookupCell]
      · simp [storeCell, h1, h2, lookupCell, ih]

/-- A write leaves every other address alone. -/
theorem lookupCell_storeCell_other (m : List (Nat × α)) {a b : Nat} (v : α) (h : b ≠ a) :
    lookupCell (storeCell m a v) b = lookupCell m b := by
  induction m with
  | nil => simp [storeCell, lookupCell, h]
  | cons head rest ih =>
    obtain ⟨k, w⟩ := head
    by_cases h1 : a < k
    · simp [storeCell, h1, lookupCell, h]
    · by_cases h2 : a = k
      · subst h2
        simp [storeCell, lookupCell, h]
      · simp [storeCell, h1, h2, lookupCell, ih]

/-- A write keeps the addresses strictly rising. -/
theorem risingFrom_storeCell (m : List (Nat × α)) (low a : Nat) (v : α) (hm : risingFrom low m = true)
    (ha : low ≤ a) : risingFrom low (storeCell m a v) = true := by
  induction m generalizing low with
  | nil => simp [storeCell, risingFrom, ha]
  | cons head rest ih =>
    obtain ⟨k, w⟩ := head
    simp only [risingFrom, Bool.and_eq_true, decide_eq_true_eq] at hm
    by_cases h1 : a < k
    · have : a + 1 ≤ k := h1
      simp [storeCell, h1, risingFrom, ha, this, hm.2]
    · by_cases h2 : a = k
      · subst h2
        simp [storeCell, risingFrom, ha, hm.2]
      · have : k + 1 ≤ a := by omega
        simp [storeCell, h1, h2, risingFrom, hm.1, ih (k + 1) hm.2 this]

/-- A bound on the written addresses survives a write below it. -/
theorem forall_mem_storeCell {P : Nat → Prop} (m : List (Nat × α)) (a : Nat) (v : α)
    (hm : ∀ p ∈ m, P p.1) (ha : P a) : ∀ p ∈ storeCell m a v, P p.1 := by
  induction m with
  | nil => simpa [storeCell] using ha
  | cons head rest ih =>
    obtain ⟨k, w⟩ := head
    have hk : P k := hm _ (List.mem_cons_self ..)
    have hr : ∀ p ∈ rest, P p.1 := fun p hp => hm p (List.mem_cons_of_mem _ hp)
    by_cases h1 : a < k
    · simp only [storeCell, h1, if_true]
      intro p hp
      rcases List.mem_cons.1 hp with rfl | hp
      · exact ha
      · exact hm p hp
    · by_cases h2 : a = k
      · simp only [storeCell, h2, lt_irrefl, if_false, if_true]
        intro p hp
        rcases List.mem_cons.1 hp with rfl | hp
        · exact hk
        · exact hr p hp
      · simp only [storeCell, h1, h2, if_false]
        intro p hp
        rcases List.mem_cons.1 hp with rfl | hp
        · exact hk
        · exact ih hr p hp

/-- A file placed in IN is in canonical form. -/
theorem risingFrom_placeBytes (bs : List Byte) (low a : Nat) (h : low ≤ a) :
    risingFrom low (placeBytes a bs) = true := by
  induction bs generalizing low a with
  | nil => rfl
  | cons b bs ih => simp [placeBytes, risingFrom, h, ih]

/-- A file placed in IN lies without a gap. -/
@[simp] theorem contiguousFrom_placeBytes (bs : List Byte) (a : Nat) :
    contiguousFrom a (placeBytes a bs) = true := by
  induction bs generalizing a with
  | nil => rfl
  | cons b bs ih => simp [placeBytes, contiguousFrom, ih]

/-- A file of n bytes lists n cells. -/
@[simp] theorem length_placeBytes (bs : List Byte) (a : Nat) : (placeBytes a bs).length = bs.length := by
  induction bs generalizing a with
  | nil => rfl
  | cons b bs ih => simp [placeBytes, ih]

/-- Where the listed addresses have no gap, each of them holds a byte. -/
theorem isSome_lookupCell_of_contiguousFrom (m : Memory) (a b : Nat) (hm : contiguousFrom a m = true) (h1 : a ≤ b)
    (h2 : b < a + m.length) : (lookupCell m b).isSome = true := by
  induction m generalizing a with
  | nil => simp at h2; omega
  | cons head rest ih =>
    obtain ⟨k, w⟩ := head
    simp only [contiguousFrom, Bool.and_eq_true, decide_eq_true_eq] at hm
    by_cases hb : b = k
    · simp [lookupCell, hb]
    · simp only [lookupCell, hb, if_false]
      have : k = a := hm.1
      have h3 : (⟨k, w⟩ :: rest : Memory).length = rest.length + 1 := rfl
      exact ih (a + 1) hm.2 (by omega) (by omega)

/-- The byte of a placed file at an address. -/
theorem lookupCell_placeBytes (bs : List Byte) (a j : Nat) :
    lookupCell (placeBytes a bs) (a + j) = bs[j]? := by
  induction bs generalizing a j with
  | nil => simp [placeBytes, lookupCell]
  | cons b bs ih =>
    cases j with
    | zero => simp [placeBytes, lookupCell]
    | succ j =>
      have h : a + (j + 1) = (a + 1) + j := by omega
      have h2 : a + 1 + j ≠ a := by omega
      simp [placeBytes, lookupCell, h, h2, ih]

/-- The canonical form of IN: placing a file gives it. -/
theorem Memory.wf_placeBytes (bs : List Byte) : Memory.wf (placeBytes 0 bs) = true :=
  risingFrom_placeBytes bs 0 0 (le_refl 0)

/-- The canonical form of a canvas: every store keeps it. -/
theorem Cells.wf_storeCell (c : Cells) (a : Nat) (v : Word) (h : Cells.wf c = true) :
    Cells.wf (storeCell c a v) = true :=
  risingFrom_storeCell c 0 a v h (Nat.zero_le a)

/-- Every byte of a range that IN holds can be read. -/
theorem memBytes_isSome (m : Memory) (n a : Nat) (h : ∀ b, a ≤ b → b < a + n → (lookupCell m b).isSome = true) :
    (memBytes m n a).isSome = true := by
  induction n generalizing a with
  | zero => rfl
  | succ n ih =>
    obtain ⟨b, hb⟩ := Option.isSome_iff_exists.1 (h a (le_refl a) (by omega))
    obtain ⟨bs, hbs⟩ := Option.isSome_iff_exists.1 (ih (a + 1) fun c h1 h2 => h c (by omega) (by omega))
    simp [memBytes, hb, hbs]

/-- The bytes read are as many as were asked for. -/
theorem length_memBytes (m : Memory) (n a : Nat) (bs : List Byte) (h : memBytes m n a = some bs) :
    bs.length = n := by
  induction n generalizing a bs with
  | zero => simp [memBytes] at h; simp [← h]
  | succ n ih =>
    simp only [memBytes] at h
    split at h
    · cases h
    · split at h
      · cases h
      · next hb => cases h; simp [ih _ _ hb]

/-- Byte `j` of the bytes read is the byte at address `a + j`. -/
theorem getElem?_memBytes (m : Memory) (n a j : Nat) (bs : List Byte) (h : memBytes m n a = some bs) (hj : j < n) :
    bs[j]? = lookupCell m (a + j) := by
  induction n generalizing a bs j with
  | zero => omega
  | succ n ih =>
    simp only [memBytes] at h
    split at h
    · cases h
    · next b hb =>
      split at h
      · cases h
      · next bs' hbs =>
        cases h
        cases j with
        | zero => simp [hb]
        | succ j =>
          have : a + (j + 1) = a + 1 + j := by omega
          simp [this, ih (a + 1) j bs' hbs (by omega)]

end Sys2Proof.Machine
end

