-- ==== Sys2Proof/Laws/State.lean ====
section
/-! SUPPORT. One lemma per field per named update of State (Machine/Ops.lean, Operands.lean, Flags.lean). -/

namespace Sys2Proof.Machine

/-! ### State.goto -/

@[simp] theorem State.goto_params (s : State) (x : SeqStep) : (s.goto x).params = s.params := rfl
@[simp] theorem State.goto_inMem (s : State) (x : SeqStep) : (s.goto x).inMem = s.inMem := rfl
@[simp] theorem State.goto_inLen (s : State) (x : SeqStep) : (s.goto x).inLen = s.inLen := rfl
@[simp] theorem State.goto_status (s : State) (x : SeqStep) : (s.goto x).status = s.status := rfl
@[simp] theorem State.goto_hdr (s : State) (x : SeqStep) : (s.goto x).hdr = s.hdr := rfl
@[simp] theorem State.goto_levelStatus (s : State) (x : SeqStep) : (s.goto x).levelStatus = s.levelStatus := rfl
@[simp] theorem State.goto_seq (s : State) (x : SeqStep) : (s.goto x).seq = { s.seq with step := x } := rfl
@[simp] theorem State.goto_lvl (s : State) (x : SeqStep) : (s.goto x).lvl = s.lvl := rfl
@[simp] theorem State.goto_dp (s : State) (x : SeqStep) : (s.goto x).dp = s.dp := rfl
@[simp] theorem State.goto_pal (s : State) (x : SeqStep) : (s.goto x).pal = s.pal := rfl
@[simp] theorem State.goto_aramp (s : State) (x : SeqStep) : (s.goto x).aramp = s.aramp := rfl
@[simp] theorem State.goto_flags (s : State) (x : SeqStep) : (s.goto x).flags = s.flags := rfl
@[simp] theorem State.goto_canvas (s : State) (x : SeqStep) : (s.goto x).canvas = s.canvas := rfl
@[simp] theorem State.goto_out (s : State) (x : SeqStep) : (s.goto x).out = s.out := rfl
@[simp] theorem State.goto_fault (s : State) (x : SeqStep) : (s.goto x).fault = s.fault := rfl
@[simp] theorem State.goto_runAll (s : State) (x : SeqStep) : (s.goto x).runAll = s.runAll := rfl
@[simp] theorem State.goto_host (s : State) (x : SeqStep) : (s.goto x).host = s.host := rfl
@[simp] theorem State.goto_answers (s : State) (x : SeqStep) : (s.goto x).answers = s.answers := rfl
@[simp] theorem State.goto_hostReads (s : State) (x : SeqStep) : (s.goto x).hostReads = s.hostReads := rfl
@[simp] theorem State.goto_issue (s : State) (x : SeqStep) : (s.goto x).issue = s.issue := rfl
@[simp] theorem State.goto_emitCount (s : State) (x : SeqStep) : (s.goto x).emitCount = s.emitCount := rfl
@[simp] theorem State.goto_drawCount (s : State) (x : SeqStep) : (s.goto x).drawCount = s.drawCount := rfl

/-! ### State.setPix -/

@[simp] theorem State.setPix_params (s : State) (p : Fin 16) : (s.setPix p).params = s.params := rfl
@[simp] theorem State.setPix_inMem (s : State) (p : Fin 16) : (s.setPix p).inMem = s.inMem := rfl
@[simp] theorem State.setPix_inLen (s : State) (p : Fin 16) : (s.setPix p).inLen = s.inLen := rfl
@[simp] theorem State.setPix_status (s : State) (p : Fin 16) : (s.setPix p).status = s.status := rfl
@[simp] theorem State.setPix_hdr (s : State) (p : Fin 16) : (s.setPix p).hdr = s.hdr := rfl
@[simp] theorem State.setPix_levelStatus (s : State) (p : Fin 16) : (s.setPix p).levelStatus = s.levelStatus := rfl
@[simp] theorem State.setPix_seq (s : State) (p : Fin 16) : (s.setPix p).seq = { s.seq with pix := p } := rfl
@[simp] theorem State.setPix_lvl (s : State) (p : Fin 16) : (s.setPix p).lvl = s.lvl := rfl
@[simp] theorem State.setPix_dp (s : State) (p : Fin 16) : (s.setPix p).dp = s.dp := rfl
@[simp] theorem State.setPix_pal (s : State) (p : Fin 16) : (s.setPix p).pal = s.pal := rfl
@[simp] theorem State.setPix_aramp (s : State) (p : Fin 16) : (s.setPix p).aramp = s.aramp := rfl
@[simp] theorem State.setPix_flags (s : State) (p : Fin 16) : (s.setPix p).flags = s.flags := rfl
@[simp] theorem State.setPix_canvas (s : State) (p : Fin 16) : (s.setPix p).canvas = s.canvas := rfl
@[simp] theorem State.setPix_out (s : State) (p : Fin 16) : (s.setPix p).out = s.out := rfl
@[simp] theorem State.setPix_fault (s : State) (p : Fin 16) : (s.setPix p).fault = s.fault := rfl
@[simp] theorem State.setPix_runAll (s : State) (p : Fin 16) : (s.setPix p).runAll = s.runAll := rfl
@[simp] theorem State.setPix_host (s : State) (p : Fin 16) : (s.setPix p).host = s.host := rfl
@[simp] theorem State.setPix_answers (s : State) (p : Fin 16) : (s.setPix p).answers = s.answers := rfl
@[simp] theorem State.setPix_hostReads (s : State) (p : Fin 16) : (s.setPix p).hostReads = s.hostReads := rfl
@[simp] theorem State.setPix_issue (s : State) (p : Fin 16) : (s.setPix p).issue = s.issue := rfl
@[simp] theorem State.setPix_emitCount (s : State) (p : Fin 16) : (s.setPix p).emitCount = s.emitCount := rfl
@[simp] theorem State.setPix_drawCount (s : State) (p : Fin 16) : (s.setPix p).drawCount = s.drawCount := rfl

/-! ### State.raise -/

@[simp] theorem State.raise_params (s : State) (f : Fault) : (s.raise f).params = s.params := rfl
@[simp] theorem State.raise_inMem (s : State) (f : Fault) : (s.raise f).inMem = s.inMem := rfl
@[simp] theorem State.raise_inLen (s : State) (f : Fault) : (s.raise f).inLen = s.inLen := rfl
@[simp] theorem State.raise_status (s : State) (f : Fault) : (s.raise f).status = s.status := rfl
@[simp] theorem State.raise_hdr (s : State) (f : Fault) : (s.raise f).hdr = s.hdr := rfl
@[simp] theorem State.raise_levelStatus (s : State) (f : Fault) : (s.raise f).levelStatus = s.levelStatus := rfl
@[simp] theorem State.raise_seq (s : State) (f : Fault) : (s.raise f).seq = s.seq := rfl
@[simp] theorem State.raise_lvl (s : State) (f : Fault) : (s.raise f).lvl = s.lvl := rfl
@[simp] theorem State.raise_dp (s : State) (f : Fault) : (s.raise f).dp = s.dp := rfl
@[simp] theorem State.raise_pal (s : State) (f : Fault) : (s.raise f).pal = s.pal := rfl
@[simp] theorem State.raise_aramp (s : State) (f : Fault) : (s.raise f).aramp = s.aramp := rfl
@[simp] theorem State.raise_flags (s : State) (f : Fault) : (s.raise f).flags = s.flags := rfl
@[simp] theorem State.raise_canvas (s : State) (f : Fault) : (s.raise f).canvas = s.canvas := rfl
@[simp] theorem State.raise_out (s : State) (f : Fault) : (s.raise f).out = s.out := rfl
@[simp] theorem State.raise_fault (s : State) (f : Fault) : (s.raise f).fault = some f := rfl
@[simp] theorem State.raise_runAll (s : State) (f : Fault) : (s.raise f).runAll = s.runAll := rfl
@[simp] theorem State.raise_host (s : State) (f : Fault) : (s.raise f).host = s.host := rfl
@[simp] theorem State.raise_answers (s : State) (f : Fault) : (s.raise f).answers = s.answers := rfl
@[simp] theorem State.raise_hostReads (s : State) (f : Fault) : (s.raise f).hostReads = s.hostReads := rfl
@[simp] theorem State.raise_issue (s : State) (f : Fault) : (s.raise f).issue = s.issue := rfl
@[simp] theorem State.raise_emitCount (s : State) (f : Fault) : (s.raise f).emitCount = s.emitCount := rfl
@[simp] theorem State.raise_drawCount (s : State) (f : Fault) : (s.raise f).drawCount = s.drawCount := rfl

/-! ### State.discardCanvas -/

@[simp] theorem State.discardCanvas_params (s : State) : s.discardCanvas.params = s.params := rfl
@[simp] theorem State.discardCanvas_inMem (s : State) : s.discardCanvas.inMem = s.inMem := rfl
@[simp] theorem State.discardCanvas_inLen (s : State) : s.discardCanvas.inLen = s.inLen := rfl
@[simp] theorem State.discardCanvas_status (s : State) : s.discardCanvas.status = s.status := rfl
@[simp] theorem State.discardCanvas_hdr (s : State) : s.discardCanvas.hdr = s.hdr := rfl
@[simp] theorem State.discardCanvas_levelStatus (s : State) : s.discardCanvas.levelStatus = s.levelStatus := rfl
@[simp] theorem State.discardCanvas_seq (s : State) : s.discardCanvas.seq = s.seq := rfl
@[simp] theorem State.discardCanvas_lvl (s : State) : s.discardCanvas.lvl = s.lvl := rfl
@[simp] theorem State.discardCanvas_dp (s : State) : s.discardCanvas.dp = s.dp := rfl
@[simp] theorem State.discardCanvas_pal (s : State) : s.discardCanvas.pal = s.pal := rfl
@[simp] theorem State.discardCanvas_aramp (s : State) : s.discardCanvas.aramp = s.aramp := rfl
@[simp] theorem State.discardCanvas_flags (s : State) : s.discardCanvas.flags = s.flags := rfl
@[simp] theorem State.discardCanvas_canvas (s : State) : s.discardCanvas.canvas = none := rfl
@[simp] theorem State.discardCanvas_out (s : State) : s.discardCanvas.out = s.out := rfl
@[simp] theorem State.discardCanvas_fault (s : State) : s.discardCanvas.fault = s.fault := rfl
@[simp] theorem State.discardCanvas_runAll (s : State) : s.discardCanvas.runAll = s.runAll := rfl
@[simp] theorem State.discardCanvas_host (s : State) : s.discardCanvas.host = s.host := rfl
@[simp] theorem State.discardCanvas_answers (s : State) : s.discardCanvas.answers = s.answers := rfl
@[simp] theorem State.discardCanvas_hostReads (s : State) : s.discardCanvas.hostReads = s.hostReads := rfl
@[simp] theorem State.discardCanvas_issue (s : State) : s.discardCanvas.issue = s.issue := rfl
@[simp] theorem State.discardCanvas_emitCount (s : State) : s.discardCanvas.emitCount = s.emitCount := rfl
@[simp] theorem State.discardCanvas_drawCount (s : State) : s.discardCanvas.drawCount = s.drawCount := rfl

/-! ### State.countVisited -/

@[simp] theorem State.countVisited_params (s : State) : s.countVisited.params = s.params := rfl
@[simp] theorem State.countVisited_inMem (s : State) : s.countVisited.inMem = s.inMem := rfl
@[simp] theorem State.countVisited_inLen (s : State) : s.countVisited.inLen = s.inLen := rfl
@[simp] theorem State.countVisited_status (s : State) : s.countVisited.status = { s.status with levelsVisited := s.status.levelsVisited + 1 } := rfl
@[simp] theorem State.countVisited_hdr (s : State) : s.countVisited.hdr = s.hdr := rfl
@[simp] theorem State.countVisited_levelStatus (s : State) : s.countVisited.levelStatus = s.levelStatus := rfl
@[simp] theorem State.countVisited_seq (s : State) : s.countVisited.seq = s.seq := rfl
@[simp] theorem State.countVisited_lvl (s : State) : s.countVisited.lvl = s.lvl := rfl
@[simp] theorem State.countVisited_dp (s : State) : s.countVisited.dp = s.dp := rfl
@[simp] theorem State.countVisited_pal (s : State) : s.countVisited.pal = s.pal := rfl
@[simp] theorem State.countVisited_aramp (s : State) : s.countVisited.aramp = s.aramp := rfl
@[simp] theorem State.countVisited_flags (s : State) : s.countVisited.flags = s.flags := rfl
@[simp] theorem State.countVisited_canvas (s : State) : s.countVisited.canvas = s.canvas := rfl
@[simp] theorem State.countVisited_out (s : State) : s.countVisited.out = s.out := rfl
@[simp] theorem State.countVisited_fault (s : State) : s.countVisited.fault = s.fault := rfl
@[simp] theorem State.countVisited_runAll (s : State) : s.countVisited.runAll = s.runAll := rfl
@[simp] theorem State.countVisited_host (s : State) : s.countVisited.host = s.host := rfl
@[simp] theorem State.countVisited_answers (s : State) : s.countVisited.answers = s.answers := rfl
@[simp] theorem State.countVisited_hostReads (s : State) : s.countVisited.hostReads = s.hostReads := rfl
@[simp] theorem State.countVisited_issue (s : State) : s.countVisited.issue = s.issue := rfl
@[simp] theorem State.countVisited_emitCount (s : State) : s.countVisited.emitCount = s.emitCount := rfl
@[simp] theorem State.countVisited_drawCount (s : State) : s.countVisited.drawCount = s.drawCount := rfl

/-! ### State.fatalError -/

@[simp] theorem State.fatalError_params (s : State) (c : FatalCode) : (s.fatalError c).params = s.params := rfl
@[simp] theorem State.fatalError_inMem (s : State) (c : FatalCode) : (s.fatalError c).inMem = s.inMem := rfl
@[simp] theorem State.fatalError_inLen (s : State) (c : FatalCode) : (s.fatalError c).inLen = s.inLen := rfl
@[simp] theorem State.fatalError_status (s : State) (c : FatalCode) : (s.fatalError c).status = { s.status with fatal := c } := rfl
@[simp] theorem State.fatalError_hdr (s : State) (c : FatalCode) : (s.fatalError c).hdr = s.hdr := rfl
@[simp] theorem State.fatalError_levelStatus (s : State) (c : FatalCode) : (s.fatalError c).levelStatus = s.levelStatus := rfl
@[simp] theorem State.fatalError_seq (s : State) (c : FatalCode) : (s.fatalError c).seq = { s.seq with step := .endRun } := rfl
@[simp] theorem State.fatalError_lvl (s : State) (c : FatalCode) : (s.fatalError c).lvl = s.lvl := rfl
@[simp] theorem State.fatalError_dp (s : State) (c : FatalCode) : (s.fatalError c).dp = s.dp := rfl
@[simp] theorem State.fatalError_pal (s : State) (c : FatalCode) : (s.fatalError c).pal = s.pal := rfl
@[simp] theorem State.fatalError_aramp (s : State) (c : FatalCode) : (s.fatalError c).aramp = s.aramp := rfl
@[simp] theorem State.fatalError_flags (s : State) (c : FatalCode) : (s.fatalError c).flags = s.flags := rfl
@[simp] theorem State.fatalError_canvas (s : State) (c : FatalCode) : (s.fatalError c).canvas = s.canvas := rfl
@[simp] theorem State.fatalError_out (s : State) (c : FatalCode) : (s.fatalError c).out = s.out := rfl
@[simp] theorem State.fatalError_fault (s : State) (c : FatalCode) : (s.fatalError c).fault = s.fault := rfl
@[simp] theorem State.fatalError_runAll (s : State) (c : FatalCode) : (s.fatalError c).runAll = s.runAll := rfl
@[simp] theorem State.fatalError_host (s : State) (c : FatalCode) : (s.fatalError c).host = s.host := rfl
@[simp] theorem State.fatalError_answers (s : State) (c : FatalCode) : (s.fatalError c).answers = s.answers := rfl
@[simp] theorem State.fatalError_hostReads (s : State) (c : FatalCode) : (s.fatalError c).hostReads = s.hostReads := rfl
@[simp] theorem State.fatalError_issue (s : State) (c : FatalCode) : (s.fatalError c).issue = s.issue := rfl
@[simp] theorem State.fatalError_emitCount (s : State) (c : FatalCode) : (s.fatalError c).emitCount = s.emitCount := rfl
@[simp] theorem State.fatalError_drawCount (s : State) (c : FatalCode) : (s.fatalError c).drawCount = s.drawCount := rfl

/-! ### State.pushOut -/

@[simp] theorem State.pushOut_params (s : State) (img : OutImage) : (s.pushOut img).params = s.params := rfl
@[simp] theorem State.pushOut_inMem (s : State) (img : OutImage) : (s.pushOut img).inMem = s.inMem := rfl
@[simp] theorem State.pushOut_inLen (s : State) (img : OutImage) : (s.pushOut img).inLen = s.inLen := rfl
@[simp] theorem State.pushOut_status (s : State) (img : OutImage) : (s.pushOut img).status = s.status := rfl
@[simp] theorem State.pushOut_hdr (s : State) (img : OutImage) : (s.pushOut img).hdr = s.hdr := rfl
@[simp] theorem State.pushOut_levelStatus (s : State) (img : OutImage) : (s.pushOut img).levelStatus = s.levelStatus := rfl
@[simp] theorem State.pushOut_seq (s : State) (img : OutImage) : (s.pushOut img).seq = s.seq := rfl
@[simp] theorem State.pushOut_lvl (s : State) (img : OutImage) : (s.pushOut img).lvl = s.lvl := rfl
@[simp] theorem State.pushOut_dp (s : State) (img : OutImage) : (s.pushOut img).dp = s.dp := rfl
@[simp] theorem State.pushOut_pal (s : State) (img : OutImage) : (s.pushOut img).pal = s.pal := rfl
@[simp] theorem State.pushOut_aramp (s : State) (img : OutImage) : (s.pushOut img).aramp = s.aramp := rfl
@[simp] theorem State.pushOut_flags (s : State) (img : OutImage) : (s.pushOut img).flags = s.flags := rfl
@[simp] theorem State.pushOut_canvas (s : State) (img : OutImage) : (s.pushOut img).canvas = s.canvas := rfl
@[simp] theorem State.pushOut_out (s : State) (img : OutImage) : (s.pushOut img).out = s.out ++ [img] := rfl
@[simp] theorem State.pushOut_fault (s : State) (img : OutImage) : (s.pushOut img).fault = s.fault := rfl
@[simp] theorem State.pushOut_runAll (s : State) (img : OutImage) : (s.pushOut img).runAll = s.runAll := rfl
@[simp] theorem State.pushOut_host (s : State) (img : OutImage) : (s.pushOut img).host = s.host := rfl
@[simp] theorem State.pushOut_answers (s : State) (img : OutImage) : (s.pushOut img).answers = s.answers := rfl
@[simp] theorem State.pushOut_hostReads (s : State) (img : OutImage) : (s.pushOut img).hostReads = s.hostReads := rfl
@[simp] theorem State.pushOut_issue (s : State) (img : OutImage) : (s.pushOut img).issue = s.issue := rfl
@[simp] theorem State.pushOut_emitCount (s : State) (img : OutImage) : (s.pushOut img).emitCount = s.emitCount := rfl
@[simp] theorem State.pushOut_drawCount (s : State) (img : OutImage) : (s.pushOut img).drawCount = s.drawCount := rfl

/-! ### State.setC0 -/

@[simp] theorem State.setC0_params (s : State) (v : Nat) : (s.setC0 v).params = s.params := rfl
@[simp] theorem State.setC0_inMem (s : State) (v : Nat) : (s.setC0 v).inMem = s.inMem := rfl
@[simp] theorem State.setC0_inLen (s : State) (v : Nat) : (s.setC0 v).inLen = s.inLen := rfl
@[simp] theorem State.setC0_status (s : State) (v : Nat) : (s.setC0 v).status = s.status := rfl
@[simp] theorem State.setC0_hdr (s : State) (v : Nat) : (s.setC0 v).hdr = s.hdr := rfl
@[simp] theorem State.setC0_levelStatus (s : State) (v : Nat) : (s.setC0 v).levelStatus = s.levelStatus := rfl
@[simp] theorem State.setC0_seq (s : State) (v : Nat) : (s.setC0 v).seq = s.seq := rfl
@[simp] theorem State.setC0_lvl (s : State) (v : Nat) : (s.setC0 v).lvl = s.lvl := rfl
@[simp] theorem State.setC0_dp (s : State) (v : Nat) : (s.setC0 v).dp = { s.dp with c0 := some (BitVec.ofNat 16 v) } := rfl
@[simp] theorem State.setC0_pal (s : State) (v : Nat) : (s.setC0 v).pal = s.pal := rfl
@[simp] theorem State.setC0_aramp (s : State) (v : Nat) : (s.setC0 v).aramp = s.aramp := rfl
@[simp] theorem State.setC0_flags (s : State) (v : Nat) : (s.setC0 v).flags = s.flags := rfl
@[simp] theorem State.setC0_canvas (s : State) (v : Nat) : (s.setC0 v).canvas = s.canvas := rfl
@[simp] theorem State.setC0_out (s : State) (v : Nat) : (s.setC0 v).out = s.out := rfl
@[simp] theorem State.setC0_fault (s : State) (v : Nat) : (s.setC0 v).fault = s.fault := rfl
@[simp] theorem State.setC0_runAll (s : State) (v : Nat) : (s.setC0 v).runAll = s.runAll := rfl
@[simp] theorem State.setC0_host (s : State) (v : Nat) : (s.setC0 v).host = s.host := rfl
@[simp] theorem State.setC0_answers (s : State) (v : Nat) : (s.setC0 v).answers = s.answers := rfl
@[simp] theorem State.setC0_hostReads (s : State) (v : Nat) : (s.setC0 v).hostReads = s.hostReads := rfl
@[simp] theorem State.setC0_issue (s : State) (v : Nat) : (s.setC0 v).issue = s.issue := rfl
@[simp] theorem State.setC0_emitCount (s : State) (v : Nat) : (s.setC0 v).emitCount = s.emitCount := rfl
@[simp] theorem State.setC0_drawCount (s : State) (v : Nat) : (s.setC0 v).drawCount = s.drawCount := rfl

/-! ### State.setC1 -/

@[simp] theorem State.setC1_params (s : State) (v : Nat) : (s.setC1 v).params = s.params := rfl
@[simp] theorem State.setC1_inMem (s : State) (v : Nat) : (s.setC1 v).inMem = s.inMem := rfl
@[simp] theorem State.setC1_inLen (s : State) (v : Nat) : (s.setC1 v).inLen = s.inLen := rfl
@[simp] theorem State.setC1_status (s : State) (v : Nat) : (s.setC1 v).status = s.status := rfl
@[simp] theorem State.setC1_hdr (s : State) (v : Nat) : (s.setC1 v).hdr = s.hdr := rfl
@[simp] theorem State.setC1_levelStatus (s : State) (v : Nat) : (s.setC1 v).levelStatus = s.levelStatus := rfl
@[simp] theorem State.setC1_seq (s : State) (v : Nat) : (s.setC1 v).seq = s.seq := rfl
@[simp] theorem State.setC1_lvl (s : State) (v : Nat) : (s.setC1 v).lvl = s.lvl := rfl
@[simp] theorem State.setC1_dp (s : State) (v : Nat) : (s.setC1 v).dp = { s.dp with c1 := some (BitVec.ofNat 16 v) } := rfl
@[simp] theorem State.setC1_pal (s : State) (v : Nat) : (s.setC1 v).pal = s.pal := rfl
@[simp] theorem State.setC1_aramp (s : State) (v : Nat) : (s.setC1 v).aramp = s.aramp := rfl
@[simp] theorem State.setC1_flags (s : State) (v : Nat) : (s.setC1 v).flags = s.flags := rfl
@[simp] theorem State.setC1_canvas (s : State) (v : Nat) : (s.setC1 v).canvas = s.canvas := rfl
@[simp] theorem State.setC1_out (s : State) (v : Nat) : (s.setC1 v).out = s.out := rfl
@[simp] theorem State.setC1_fault (s : State) (v : Nat) : (s.setC1 v).fault = s.fault := rfl
@[simp] theorem State.setC1_runAll (s : State) (v : Nat) : (s.setC1 v).runAll = s.runAll := rfl
@[simp] theorem State.setC1_host (s : State) (v : Nat) : (s.setC1 v).host = s.host := rfl
@[simp] theorem State.setC1_answers (s : State) (v : Nat) : (s.setC1 v).answers = s.answers := rfl
@[simp] theorem State.setC1_hostReads (s : State) (v : Nat) : (s.setC1 v).hostReads = s.hostReads := rfl
@[simp] theorem State.setC1_issue (s : State) (v : Nat) : (s.setC1 v).issue = s.issue := rfl
@[simp] theorem State.setC1_emitCount (s : State) (v : Nat) : (s.setC1 v).emitCount = s.emitCount := rfl
@[simp] theorem State.setC1_drawCount (s : State) (v : Nat) : (s.setC1 v).drawCount = s.drawCount := rfl

/-! ### State.setCsel -/

@[simp] theorem State.setCsel_params (s : State) (v : Nat) : (s.setCsel v).params = s.params := rfl
@[simp] theorem State.setCsel_inMem (s : State) (v : Nat) : (s.setCsel v).inMem = s.inMem := rfl
@[simp] theorem State.setCsel_inLen (s : State) (v : Nat) : (s.setCsel v).inLen = s.inLen := rfl
@[simp] theorem State.setCsel_status (s : State) (v : Nat) : (s.setCsel v).status = s.status := rfl
@[simp] theorem State.setCsel_hdr (s : State) (v : Nat) : (s.setCsel v).hdr = s.hdr := rfl
@[simp] theorem State.setCsel_levelStatus (s : State) (v : Nat) : (s.setCsel v).levelStatus = s.levelStatus := rfl
@[simp] theorem State.setCsel_seq (s : State) (v : Nat) : (s.setCsel v).seq = s.seq := rfl
@[simp] theorem State.setCsel_lvl (s : State) (v : Nat) : (s.setCsel v).lvl = s.lvl := rfl
@[simp] theorem State.setCsel_dp (s : State) (v : Nat) : (s.setCsel v).dp = { s.dp with csel := some (BitVec.ofNat 32 v) } := rfl
@[simp] theorem State.setCsel_pal (s : State) (v : Nat) : (s.setCsel v).pal = s.pal := rfl
@[simp] theorem State.setCsel_aramp (s : State) (v : Nat) : (s.setCsel v).aramp = s.aramp := rfl
@[simp] theorem State.setCsel_flags (s : State) (v : Nat) : (s.setCsel v).flags = s.flags := rfl
@[simp] theorem State.setCsel_canvas (s : State) (v : Nat) : (s.setCsel v).canvas = s.canvas := rfl
@[simp] theorem State.setCsel_out (s : State) (v : Nat) : (s.setCsel v).out = s.out := rfl
@[simp] theorem State.setCsel_fault (s : State) (v : Nat) : (s.setCsel v).fault = s.fault := rfl
@[simp] theorem State.setCsel_runAll (s : State) (v : Nat) : (s.setCsel v).runAll = s.runAll := rfl
@[simp] theorem State.setCsel_host (s : State) (v : Nat) : (s.setCsel v).host = s.host := rfl
@[simp] theorem State.setCsel_answers (s : State) (v : Nat) : (s.setCsel v).answers = s.answers := rfl
@[simp] theorem State.setCsel_hostReads (s : State) (v : Nat) : (s.setCsel v).hostReads = s.hostReads := rfl
@[simp] theorem State.setCsel_issue (s : State) (v : Nat) : (s.setCsel v).issue = s.issue := rfl
@[simp] theorem State.setCsel_emitCount (s : State) (v : Nat) : (s.setCsel v).emitCount = s.emitCount := rfl
@[simp] theorem State.setCsel_drawCount (s : State) (v : Nat) : (s.setCsel v).drawCount = s.drawCount := rfl

/-! ### State.setAfield -/

@[simp] theorem State.setAfield_params (s : State) (v : Nat) : (s.setAfield v).params = s.params := rfl
@[simp] theorem State.setAfield_inMem (s : State) (v : Nat) : (s.setAfield v).inMem = s.inMem := rfl
@[simp] theorem State.setAfield_inLen (s : State) (v : Nat) : (s.setAfield v).inLen = s.inLen := rfl
@[simp] theorem State.setAfield_status (s : State) (v : Nat) : (s.setAfield v).status = s.status := rfl
@[simp] theorem State.setAfield_hdr (s : State) (v : Nat) : (s.setAfield v).hdr = s.hdr := rfl
@[simp] theorem State.setAfield_levelStatus (s : State) (v : Nat) : (s.setAfield v).levelStatus = s.levelStatus := rfl
@[simp] theorem State.setAfield_seq (s : State) (v : Nat) : (s.setAfield v).seq = s.seq := rfl
@[simp] theorem State.setAfield_lvl (s : State) (v : Nat) : (s.setAfield v).lvl = s.lvl := rfl
@[simp] theorem State.setAfield_dp (s : State) (v : Nat) : (s.setAfield v).dp = { s.dp with afield := some (BitVec.ofNat 64 v) } := rfl
@[simp] theorem State.setAfield_pal (s : State) (v : Nat) : (s.setAfield v).pal = s.pal := rfl
@[simp] theorem State.setAfield_aramp (s : State) (v : Nat) : (s.setAfield v).aramp = s.aramp := rfl
@[simp] theorem State.setAfield_flags (s : State) (v : Nat) : (s.setAfield v).flags = s.flags := rfl
@[simp] theorem State.setAfield_canvas (s : State) (v : Nat) : (s.setAfield v).canvas = s.canvas := rfl
@[simp] theorem State.setAfield_out (s : State) (v : Nat) : (s.setAfield v).out = s.out := rfl
@[simp] theorem State.setAfield_fault (s : State) (v : Nat) : (s.setAfield v).fault = s.fault := rfl
@[simp] theorem State.setAfield_runAll (s : State) (v : Nat) : (s.setAfield v).runAll = s.runAll := rfl
@[simp] theorem State.setAfield_host (s : State) (v : Nat) : (s.setAfield v).host = s.host := rfl
@[simp] theorem State.setAfield_answers (s : State) (v : Nat) : (s.setAfield v).answers = s.answers := rfl
@[simp] theorem State.setAfield_hostReads (s : State) (v : Nat) : (s.setAfield v).hostReads = s.hostReads := rfl
@[simp] theorem State.setAfield_issue (s : State) (v : Nat) : (s.setAfield v).issue = s.issue := rfl
@[simp] theorem State.setAfield_emitCount (s : State) (v : Nat) : (s.setAfield v).emitCount = s.emitCount := rfl
@[simp] theorem State.setAfield_drawCount (s : State) (v : Nat) : (s.setAfield v).drawCount = s.drawCount := rfl

/-! ### State.setMode4 -/

@[simp] theorem State.setMode4_params (s : State) (b : Bool) : (s.setMode4 b).params = s.params := rfl
@[simp] theorem State.setMode4_inMem (s : State) (b : Bool) : (s.setMode4 b).inMem = s.inMem := rfl
@[simp] theorem State.setMode4_inLen (s : State) (b : Bool) : (s.setMode4 b).inLen = s.inLen := rfl
@[simp] theorem State.setMode4_status (s : State) (b : Bool) : (s.setMode4 b).status = s.status := rfl
@[simp] theorem State.setMode4_hdr (s : State) (b : Bool) : (s.setMode4 b).hdr = s.hdr := rfl
@[simp] theorem State.setMode4_levelStatus (s : State) (b : Bool) : (s.setMode4 b).levelStatus = s.levelStatus := rfl
@[simp] theorem State.setMode4_seq (s : State) (b : Bool) : (s.setMode4 b).seq = s.seq := rfl
@[simp] theorem State.setMode4_lvl (s : State) (b : Bool) : (s.setMode4 b).lvl = s.lvl := rfl
@[simp] theorem State.setMode4_dp (s : State) (b : Bool) : (s.setMode4 b).dp = s.dp := rfl
@[simp] theorem State.setMode4_pal (s : State) (b : Bool) : (s.setMode4 b).pal = s.pal := rfl
@[simp] theorem State.setMode4_aramp (s : State) (b : Bool) : (s.setMode4 b).aramp = s.aramp := rfl
@[simp] theorem State.setMode4_flags (s : State) (b : Bool) : (s.setMode4 b).flags = { s.flags with mode4 := b } := rfl
@[simp] theorem State.setMode4_canvas (s : State) (b : Bool) : (s.setMode4 b).canvas = s.canvas := rfl
@[simp] theorem State.setMode4_out (s : State) (b : Bool) : (s.setMode4 b).out = s.out := rfl
@[simp] theorem State.setMode4_fault (s : State) (b : Bool) : (s.setMode4 b).fault = s.fault := rfl
@[simp] theorem State.setMode4_runAll (s : State) (b : Bool) : (s.setMode4 b).runAll = s.runAll := rfl
@[simp] theorem State.setMode4_host (s : State) (b : Bool) : (s.setMode4 b).host = s.host := rfl
@[simp] theorem State.setMode4_answers (s : State) (b : Bool) : (s.setMode4 b).answers = s.answers := rfl
@[simp] theorem State.setMode4_hostReads (s : State) (b : Bool) : (s.setMode4 b).hostReads = s.hostReads := rfl
@[simp] theorem State.setMode4_issue (s : State) (b : Bool) : (s.setMode4 b).issue = s.issue := rfl
@[simp] theorem State.setMode4_emitCount (s : State) (b : Bool) : (s.setMode4 b).emitCount = s.emitCount := rfl
@[simp] theorem State.setMode4_drawCount (s : State) (b : Bool) : (s.setMode4 b).drawCount = s.drawCount := rfl

/-! ### State.setAmode7 -/

@[simp] theorem State.setAmode7_params (s : State) (b : Bool) : (s.setAmode7 b).params = s.params := rfl
@[simp] theorem State.setAmode7_inMem (s : State) (b : Bool) : (s.setAmode7 b).inMem = s.inMem := rfl
@[simp] theorem State.setAmode7_inLen (s : State) (b : Bool) : (s.setAmode7 b).inLen = s.inLen := rfl
@[simp] theorem State.setAmode7_status (s : State) (b : Bool) : (s.setAmode7 b).status = s.status := rfl
@[simp] theorem State.setAmode7_hdr (s : State) (b : Bool) : (s.setAmode7 b).hdr = s.hdr := rfl
@[simp] theorem State.setAmode7_levelStatus (s : State) (b : Bool) : (s.setAmode7 b).levelStatus = s.levelStatus := rfl
@[simp] theorem State.setAmode7_seq (s : State) (b : Bool) : (s.setAmode7 b).seq = s.seq := rfl
@[simp] theorem State.setAmode7_lvl (s : State) (b : Bool) : (s.setAmode7 b).lvl = s.lvl := rfl
@[simp] theorem State.setAmode7_dp (s : State) (b : Bool) : (s.setAmode7 b).dp = s.dp := rfl
@[simp] theorem State.setAmode7_pal (s : State) (b : Bool) : (s.setAmode7 b).pal = s.pal := rfl
@[simp] theorem State.setAmode7_aramp (s : State) (b : Bool) : (s.setAmode7 b).aramp = s.aramp := rfl
@[simp] theorem State.setAmode7_flags (s : State) (b : Bool) : (s.setAmode7 b).flags = { s.flags with amode7 := b } := rfl
@[simp] theorem State.setAmode7_canvas (s : State) (b : Bool) : (s.setAmode7 b).canvas = s.canvas := rfl
@[simp] theorem State.setAmode7_out (s : State) (b : Bool) : (s.setAmode7 b).out = s.out := rfl
@[simp] theorem State.setAmode7_fault (s : State) (b : Bool) : (s.setAmode7 b).fault = s.fault := rfl
@[simp] theorem State.setAmode7_runAll (s : State) (b : Bool) : (s.setAmode7 b).runAll = s.runAll := rfl
@[simp] theorem State.setAmode7_host (s : State) (b : Bool) : (s.setAmode7 b).host = s.host := rfl
@[simp] theorem State.setAmode7_answers (s : State) (b : Bool) : (s.setAmode7 b).answers = s.answers := rfl
@[simp] theorem State.setAmode7_hostReads (s : State) (b : Bool) : (s.setAmode7 b).hostReads = s.hostReads := rfl
@[simp] theorem State.setAmode7_issue (s : State) (b : Bool) : (s.setAmode7 b).issue = s.issue := rfl
@[simp] theorem State.setAmode7_emitCount (s : State) (b : Bool) : (s.setAmode7 b).emitCount = s.emitCount := rfl
@[simp] theorem State.setAmode7_drawCount (s : State) (b : Bool) : (s.setAmode7 b).drawCount = s.drawCount := rfl

/-! ### State.setBadCmd -/

@[simp] theorem State.setBadCmd_params (s : State) : s.setBadCmd.params = s.params := rfl
@[simp] theorem State.setBadCmd_inMem (s : State) : s.setBadCmd.inMem = s.inMem := rfl
@[simp] theorem State.setBadCmd_inLen (s : State) : s.setBadCmd.inLen = s.inLen := rfl
@[simp] theorem State.setBadCmd_status (s : State) : s.setBadCmd.status = { s.status with badCmd := true } := rfl
@[simp] theorem State.setBadCmd_hdr (s : State) : s.setBadCmd.hdr = s.hdr := rfl
@[simp] theorem State.setBadCmd_levelStatus (s : State) : s.setBadCmd.levelStatus = s.levelStatus := rfl
@[simp] theorem State.setBadCmd_seq (s : State) : s.setBadCmd.seq = s.seq := rfl
@[simp] theorem State.setBadCmd_lvl (s : State) : s.setBadCmd.lvl = s.lvl := rfl
@[simp] theorem State.setBadCmd_dp (s : State) : s.setBadCmd.dp = s.dp := rfl
@[simp] theorem State.setBadCmd_pal (s : State) : s.setBadCmd.pal = s.pal := rfl
@[simp] theorem State.setBadCmd_aramp (s : State) : s.setBadCmd.aramp = s.aramp := rfl
@[simp] theorem State.setBadCmd_flags (s : State) : s.setBadCmd.flags = s.flags := rfl
@[simp] theorem State.setBadCmd_canvas (s : State) : s.setBadCmd.canvas = s.canvas := rfl
@[simp] theorem State.setBadCmd_out (s : State) : s.setBadCmd.out = s.out := rfl
@[simp] theorem State.setBadCmd_fault (s : State) : s.setBadCmd.fault = s.fault := rfl
@[simp] theorem State.setBadCmd_runAll (s : State) : s.setBadCmd.runAll = s.runAll := rfl
@[simp] theorem State.setBadCmd_host (s : State) : s.setBadCmd.host = s.host := rfl
@[simp] theorem State.setBadCmd_answers (s : State) : s.setBadCmd.answers = s.answers := rfl
@[simp] theorem State.setBadCmd_hostReads (s : State) : s.setBadCmd.hostReads = s.hostReads := rfl
@[simp] theorem State.setBadCmd_issue (s : State) : s.setBadCmd.issue = s.issue := rfl
@[simp] theorem State.setBadCmd_emitCount (s : State) : s.setBadCmd.emitCount = s.emitCount := rfl
@[simp] theorem State.setBadCmd_drawCount (s : State) : s.setBadCmd.drawCount = s.drawCount := rfl

/-! ### State.setLevelStatus -/

@[simp] theorem State.setLevelStatus_params (s : State) (c : LevelCode) : (s.setLevelStatus c).params = s.params := by
  unfold State.setLevelStatus; split <;> rfl
@[simp] theorem State.setLevelStatus_inMem (s : State) (c : LevelCode) : (s.setLevelStatus c).inMem = s.inMem := by
  unfold State.setLevelStatus; split <;> rfl
@[simp] theorem State.setLevelStatus_inLen (s : State) (c : LevelCode) : (s.setLevelStatus c).inLen = s.inLen := by
  unfold State.setLevelStatus; split <;> rfl
@[simp] theorem State.setLevelStatus_status (s : State) (c : LevelCode) : (s.setLevelStatus c).status = s.status := by
  unfold State.setLevelStatus; split <;> rfl
@[simp] theorem State.setLevelStatus_hdr (s : State) (c : LevelCode) : (s.setLevelStatus c).hdr = s.hdr := by
  unfold State.setLevelStatus; split <;> rfl
@[simp] theorem State.setLevelStatus_seq (s : State) (c : LevelCode) : (s.setLevelStatus c).seq = s.seq := by
  unfold State.setLevelStatus; split <;> rfl
@[simp] theorem State.setLevelStatus_lvl (s : State) (c : LevelCode) : (s.setLevelStatus c).lvl = s.lvl := by
  unfold State.setLevelStatus; split <;> rfl
@[simp] theorem State.setLevelStatus_dp (s : State) (c : LevelCode) : (s.setLevelStatus c).dp = s.dp := by
  unfold State.setLevelStatus; split <;> rfl
@[simp] theorem State.setLevelStatus_pal (s : State) (c : LevelCode) : (s.setLevelStatus c).pal = s.pal := by
  unfold State.setLevelStatus; split <;> rfl
@[simp] theorem State.setLevelStatus_aramp (s : State) (c : LevelCode) : (s.setLevelStatus c).aramp = s.aramp := by
  unfold State.setLevelStatus; split <;> rfl
@[simp] theorem State.setLevelStatus_flags (s : State) (c : LevelCode) : (s.setLevelStatus c).flags = s.flags := by
  unfold State.setLevelStatus; split <;> rfl
@[simp] theorem State.setLevelStatus_canvas (s : State) (c : LevelCode) : (s.setLevelStatus c).canvas = s.canvas := by
  unfold State.setLevelStatus; split <;> rfl
@[simp] theorem State.setLevelStatus_out (s : State) (c : LevelCode) : (s.setLevelStatus c).out = s.out := by
  unfold State.setLevelStatus; split <;> rfl
@[simp] theorem State.setLevelStatus_fault (s : State) (c : LevelCode) : (s.setLevelStatus c).fault = s.fault := by
  unfold State.setLevelStatus; split <;> rfl
@[simp] theorem State.setLevelStatus_runAll (s : State) (c : LevelCode) : (s.setLevelStatus c).runAll = s.runAll := by
  unfold State.setLevelStatus; split <;> rfl
@[simp] theorem State.setLevelStatus_host (s : State) (c : LevelCode) : (s.setLevelStatus c).host = s.host := by
  unfold State.setLevelStatus; split <;> rfl
@[simp] theorem State.setLevelStatus_answers (s : State) (c : LevelCode) : (s.setLevelStatus c).answers = s.answers := by
  unfold State.setLevelStatus; split <;> rfl
@[simp] theorem State.setLevelStatus_hostReads (s : State) (c : LevelCode) : (s.setLevelStatus c).hostReads = s.hostReads := by
  unfold State.setLevelStatus; split <;> rfl
@[simp] theorem State.setLevelStatus_issue (s : State) (c : LevelCode) : (s.setLevelStatus c).issue = s.issue := by
  unfold State.setLevelStatus; split <;> rfl
@[simp] theorem State.setLevelStatus_emitCount (s : State) (c : LevelCode) : (s.setLevelStatus c).emitCount = s.emitCount := by
  unfold State.setLevelStatus; split <;> rfl
@[simp] theorem State.setLevelStatus_drawCount (s : State) (c : LevelCode) : (s.setLevelStatus c).drawCount = s.drawCount := by
  unfold State.setLevelStatus; split <;> rfl

/-- The level's own entry of LEVEL_STATUS takes the code. -/
theorem State.setLevelStatus_levelStatus (s : State) (c : LevelCode) (h : s.seq.level.val < 16) :
    (s.setLevelStatus c).levelStatus = s.levelStatus.set s.seq.level.val c h := by
  simp [State.setLevelStatus, h]

/-! ### State.levelError -/

@[simp] theorem State.levelError_params (s : State) (c : LevelCode) : (s.levelError c).params = s.params := by
  simp [State.levelError]
@[simp] theorem State.levelError_inMem (s : State) (c : LevelCode) : (s.levelError c).inMem = s.inMem := by
  simp [State.levelError]
@[simp] theorem State.levelError_inLen (s : State) (c : LevelCode) : (s.levelError c).inLen = s.inLen := by
  simp [State.levelError]
@[simp] theorem State.levelError_hdr (s : State) (c : LevelCode) : (s.levelError c).hdr = s.hdr := by
  simp [State.levelError]
@[simp] theorem State.levelError_lvl (s : State) (c : LevelCode) : (s.levelError c).lvl = s.lvl := by
  simp [State.levelError]
@[simp] theorem State.levelError_dp (s : State) (c : LevelCode) : (s.levelError c).dp = s.dp := by
  simp [State.levelError]
@[simp] theorem State.levelError_pal (s : State) (c : LevelCode) : (s.levelError c).pal = s.pal := by
  simp [State.levelError]
@[simp] theorem State.levelError_aramp (s : State) (c : LevelCode) : (s.levelError c).aramp = s.aramp := by
  simp [State.levelError]
@[simp] theorem State.levelError_flags (s : State) (c : LevelCode) : (s.levelError c).flags = s.flags := by
  simp [State.levelError]
@[simp] theorem State.levelError_out (s : State) (c : LevelCode) : (s.levelError c).out = s.out := by
  simp [State.levelError]
@[simp] theorem State.levelError_fault (s : State) (c : LevelCode) : (s.levelError c).fault = s.fault := by
  simp [State.levelError]
@[simp] theorem State.levelError_runAll (s : State) (c : LevelCode) : (s.levelError c).runAll = s.runAll := by
  simp [State.levelError]
@[simp] theorem State.levelError_host (s : State) (c : LevelCode) : (s.levelError c).host = s.host := by
  simp [State.levelError]
@[simp] theorem State.levelError_answers (s : State) (c : LevelCode) : (s.levelError c).answers = s.answers := by
  simp [State.levelError]
@[simp] theorem State.levelError_hostReads (s : State) (c : LevelCode) : (s.levelError c).hostReads = s.hostReads := by
  simp [State.levelError]
@[simp] theorem State.levelError_issue (s : State) (c : LevelCode) : (s.levelError c).issue = s.issue := by
  simp [State.levelError]
@[simp] theorem State.levelError_emitCount (s : State) (c : LevelCode) : (s.levelError c).emitCount = s.emitCount := by
  simp [State.levelError]
@[simp] theorem State.levelError_drawCount (s : State) (c : LevelCode) : (s.levelError c).drawCount = s.drawCount := by
  simp [State.levelError]

@[simp] theorem State.levelError_canvas (s : State) (c : LevelCode) : (s.levelError c).canvas = none := rfl
@[simp] theorem State.levelError_seq (s : State) (c : LevelCode) :
    (s.levelError c).seq = { s.seq with step := .nextLevel } := by
  simp [State.levelError]
@[simp] theorem State.levelError_status (s : State) (c : LevelCode) :
    (s.levelError c).status = { s.status with levelsVisited := s.status.levelsVisited + 1 } := by
  simp [State.levelError]
@[simp] theorem State.levelError_levelStatus (s : State) (c : LevelCode) :
    (s.levelError c).levelStatus = (s.setLevelStatus c).levelStatus := rfl

end Sys2Proof.Machine
end

