-- ==== Sys2Proof/Laws/Ops.lean ====
section
/-! SUPPORT. One lemma per shared operation, saying everything it can do. -/

namespace Sys2Proof.Machine

/-- An operation of the engine answers a next state only from a machine without a fault. -/
theorem whenLive_eq_next {s t : State} {k : State → Answer} :
    whenLive s k = .next t ↔ s.fault = none ∧ k s = .next t := by
  unfold whenLive
  split <;> simp_all

/-- Without a fault the operation runs. -/
theorem whenLive_live {s : State} (k : State → Answer) (h : s.fault = none) : whenLive s k = k s := by
  simp [whenLive, h]

/-- In a faulted machine there is no step. -/
theorem whenLive_faulted {s : State} {f : Fault} (k : State → Answer) (h : s.fault = some f) :
    whenLive s k = .fault f := by
  simp [whenLive, h]

/-- Going on from a state without a fault. -/
theorem State.andThen_live {s : State} (k : State → State) (h : s.fault = none) : s.andThen k = k s := by
  simp [State.andThen, h]

/-- A fault stops the operation where it stands. -/
theorem State.andThen_faulted {s : State} (k : State → State) (h : s.fault ≠ none) : s.andThen k = s := by
  unfold State.andThen
  split
  · rfl
  · contradiction

/-- A read of IN gives bytes exactly when it lies below IN_LEN and every byte is there. -/
theorem inReadBytes_eq_some {s : State} {a n : Nat} {bs : List Byte} :
    inReadBytes s a n = some bs ↔ a + n ≤ s.inLen.toNat ∧ memBytes s.inMem n a = some bs := by
  unfold inReadBytes
  split <;> simp_all

/-- Every read below IN_LEN succeeds where IN is covered. -/
theorem inReadBytes_isSome {s : State} {a n : Nat} (h : a + n ≤ s.inLen.toNat)
    (hc : ∀ b, b < s.inLen.toNat → (lookupCell s.inMem b).isSome = true) : ∃ bs, inReadBytes s a n = some bs := by
  have := memBytes_isSome s.inMem n a fun b _ h2 => hc b (by omega)
  obtain ⟨bs, hbs⟩ := Option.isSome_iff_exists.1 this
  exact ⟨bs, inReadBytes_eq_some.2 ⟨h, hbs⟩⟩

/-- InRead succeeds below IN_LEN where IN is covered. -/
theorem inRead_isSome {s : State} {a n : Nat} (h : a + n ≤ s.inLen.toNat)
    (hc : ∀ b, b < s.inLen.toNat → (lookupCell s.inMem b).isSome = true) : ∃ v, inRead s a n = some v := by
  obtain ⟨bs, hbs⟩ := inReadBytes_isSome h hc
  exact ⟨leNat bs, by simp [inRead, hbs]⟩

/-- A read depends on IN and IN_LEN alone. -/
theorem inRead_congr {s t : State} (h1 : t.inMem = s.inMem) (h2 : t.inLen = s.inLen) (a n : Nat) :
    inRead t a n = inRead s a n := by
  simp [inRead, inReadBytes, h1, h2]

/-- A load writes the value read, or raises FAULT_IN_BOUNDS. -/
theorem State.load_cases (s : State) (a n : Nat) (put : State → Nat → State) :
    (∃ v, inRead s a n = some v ∧ s.load a n put = put s v)
      ∨ (inRead s a n = none ∧ s.load a n put = s.raise .inBounds) := by
  unfold State.load
  cases h : inRead s a n with
  | none => exact .inr ⟨rfl, rfl⟩
  | some v => exact .inl ⟨v, rfl, rfl⟩

/-- A canvas store writes one cell of the canvas, or raises FAULT_CANVAS_BOUNDS. -/
theorem State.canvasStore_cases (s : State) (x y : Nat) (v : Word) :
    (∃ c, s.canvas = some c ∧ x < c.width ∧ y < c.height
        ∧ s.canvasStore x y v
          = { s with canvas := some { c with cells := storeCell c.cells (storageIndex c x y) v } })
      ∨ s.canvasStore x y v = s.raise .canvasBounds := by
  unfold State.canvasStore
  split
  · exact .inr rfl
  · next c hc =>
    split
    · next h => exact .inl ⟨c, hc, h.1, h.2, rfl⟩
    · exact .inr rfl

/-- A canvas store inside the canvas. -/
theorem State.canvasStore_inside {s : State} {c : Canvas} {x y : Nat} (v : Word) (hc : s.canvas = some c)
    (hx : x < c.width) (hy : y < c.height) :
    s.canvasStore x y v
      = { s with canvas := some { c with cells := storeCell c.cells (storageIndex c x y) v } } := by
  simp [State.canvasStore, hc, hx, hy]

/-- The storage index of a coordinate inside the canvas is a cell of it (R291). -/
theorem storageIndex_lt {c : Canvas} {x y : Nat} (hx : x < c.width) (hy : y < c.height) :
    storageIndex c x y < c.width * c.height := by
  have h1 : c.height - 1 - y + 1 ≤ c.height := by omega
  have h2 := Nat.mul_le_mul_right c.width h1
  unfold storageIndex
  rw [Nat.add_mul, Nat.one_mul] at h2
  rw [Nat.mul_comm c.width c.height]
  omega

/-- Two coordinates inside the canvas with one storage index are the same coordinate (R295). -/
theorem storageIndex_inj {c : Canvas} {x y x' y' : Nat} (hx : x < c.width) (hy : y < c.height) (hx' : x' < c.width)
    (hy' : y' < c.height) (h : storageIndex c x y = storageIndex c x' y') : x = x' ∧ y = y' := by
  unfold storageIndex at h
  have hpos : 0 < c.width := by omega
  have hmod := congrArg (· % c.width) h
  have hdiv := congrArg (· / c.width) h
  simp only [Nat.mul_add_mod_self_right, Nat.mod_eq_of_lt hx, Nat.mod_eq_of_lt hx'] at hmod
  rw [Nat.add_comm, Nat.add_mul_div_right _ _ hpos, Nat.add_comm _ x', Nat.add_mul_div_right _ _ hpos,
    Nat.div_eq_of_lt hx, Nat.div_eq_of_lt hx'] at hdiv
  omega

end Sys2Proof.Machine
end

