-- ==== Sys2Proof/Laws/Decoders.lean ====
section
/-! SUPPORT. What a block decoder leaves unchanged (R200), one lemma per stage. -/

namespace Sys2Proof.Machine

theorem decoderFrame_refl (s : State) : decoderFrame s s := rfl

theorem decoderFrame_trans {s t u : State} (h1 : decoderFrame s t) (h2 : decoderFrame t u) : decoderFrame s u := by
  unfold decoderFrame at *
  rw [h1] at h2
  exact h2

theorem decoderFrame_raise (s : State) (f : Fault) : decoderFrame s (s.raise f) := rfl

theorem decoderFrame_setPix (s : State) (p : Fin 16) : decoderFrame s (s.setPix p) := rfl

/-- A stage that goes on after another keeps the frame. -/
theorem decoderFrame_andThen {s t : State} {k : State → State} (h : decoderFrame s t)
    (hk : ∀ u, decoderFrame u (k u)) : decoderFrame s (t.andThen k) := by
  unfold State.andThen
  split
  · exact h
  · exact decoderFrame_trans h (hk t)

/-- A load into the datapath registers keeps the frame. -/
theorem decoderFrame_load (s : State) (a n : Nat) (put : State → Nat → State)
    (hp : ∀ v, decoderFrame s (put s v)) : decoderFrame s (s.load a n put) := by
  rcases s.load_cases a n put with ⟨v, -, h⟩ | ⟨-, h⟩
  · rw [h]; exact hp v
  · rw [h]; rfl

theorem decoderFrame_loadColours (a : Nat) (s : State) : decoderFrame s (loadColours a s) := by
  refine decoderFrame_andThen (decoderFrame_andThen ?_ fun u => ?_) fun u => ?_ <;>
    exact decoderFrame_load _ _ _ _ fun v => rfl

theorem decoderFrame_loadAlphaBlock (a : Nat) (s : State) : decoderFrame s (loadAlphaBlock a s) :=
  decoderFrame_andThen (decoderFrame_load _ _ _ _ fun _ => rfl) (decoderFrame_loadColours (a + 8))

theorem decoderFrame_canvasStore (s : State) (x y : Nat) (v : Word) : decoderFrame s (s.canvasStore x y v) := by
  rcases s.canvasStore_cases x y v with ⟨c, -, -, -, h⟩ | h <;> rw [h] <;> rfl

theorem decoderFrame_storePixel (alpha : AlphaRule) (ox oy : Nat) (p : Fin 16) (s : State) :
    decoderFrame s (storePixel alpha ox oy p s) := by
  unfold storePixel
  split
  · rfl
  · split
    · rfl
    · exact decoderFrame_canvasStore _ _ _ _

theorem decoderFrame_pixelLoop (body : Fin 16 → State → State) (hb : ∀ p s, decoderFrame s (body p s))
    (ps : List (Fin 16)) (s : State) : decoderFrame s (pixelLoop body ps s) := by
  induction ps generalizing s with
  | nil => rfl
  | cons p ps ih =>
    exact decoderFrame_andThen (decoderFrame_trans (decoderFrame_setPix s p) (hb p _)) ih

theorem decoderFrame_storePixels (alpha : AlphaRule) (ox oy : Nat) (s : State) :
    decoderFrame s (storePixels alpha ox oy s) :=
  decoderFrame_pixelLoop _ (decoderFrame_storePixel alpha ox oy) _ _

theorem decoderFrame_bc1Palette (s : State) : decoderFrame s (bc1Palette s) := by
  unfold bc1Palette
  split <;> rfl

theorem decoderFrame_fourColourPalette (s : State) : decoderFrame s (fourColourPalette s) := by
  unfold fourColourPalette
  split <;> rfl

theorem decoderFrame_bc3AlphaRamp (s : State) : decoderFrame s (bc3AlphaRamp s) := by
  unfold bc3AlphaRamp
  split <;> rfl

/-- The frame of every decoder (R200). -/
theorem decodeBlock_frame (v : Variant) (a ox oy : Nat) (s : State) :
    decoderFrame s (decodeBlock v a ox oy s) := by
  cases v with
  | bc1 =>
    exact decoderFrame_andThen (decoderFrame_andThen (decoderFrame_loadColours a s) decoderFrame_bc1Palette)
      (decoderFrame_storePixels _ ox oy)
  | bc2 =>
    exact decoderFrame_andThen
      (decoderFrame_andThen (decoderFrame_loadAlphaBlock a s) decoderFrame_fourColourPalette)
      (decoderFrame_storePixels _ ox oy)
  | bc3 =>
    exact decoderFrame_andThen
      (decoderFrame_andThen
        (decoderFrame_andThen (decoderFrame_loadAlphaBlock a s) decoderFrame_fourColourPalette)
        decoderFrame_bc3AlphaRamp)
      (decoderFrame_storePixels _ ox oy)

end Sys2Proof.Machine
end

