-- ==== Sys2Proof/Laws/Tile.lean ====
section
/-! SUPPORT. What storing the 16 pixels of a tile inside the canvas does (R200, R206, R207): the cells of the tile take
their pixels' words and every other cell stays. -/

namespace Sys2Proof.Machine

/-- The storage index of pixel `p` of the tile at (ox, oy). -/
def tileIndex (c : Canvas) (ox oy : Nat) (p : Fin 16) : Nat :=
  storageIndex c (ox + p.val % 4) (oy + p.val / 4)

/-- The cells after the pixels `ps` have been stored. -/
def tileCells (c : Canvas) (ox oy : Nat) (val : Fin 16 → Word) : List (Fin 16) → Cells → Cells
  | [], m => m
  | p :: ps, m => tileCells c ox oy val ps (storeCell m (tileIndex c ox oy p) (val p))

/-- Distinct pixels of a tile inside the canvas have distinct cells (R207). -/
theorem tileIndex_inj {c : Canvas} {ox oy : Nat} (hx : ox + 3 < c.width) (hy : oy + 3 < c.height) {p q : Fin 16}
    (h : tileIndex c ox oy p = tileIndex c ox oy q) : p = q := by
  have hp := p.isLt
  have hq := q.isLt
  obtain ⟨h1, h2⟩ := storageIndex_inj (by omega) (by omega) (by omega) (by omega) h
  apply Fin.ext
  omega

/-- A cell outside the tile keeps its value. -/
theorem lookupCell_tileCells_other {c : Canvas} {ox oy : Nat} (val : Fin 16 → Word) {i : Nat}
    (h : ¬ inTile c ox oy i) (ps : List (Fin 16)) (m : Cells) :
    lookupCell (tileCells c ox oy val ps m) i = lookupCell m i := by
  induction ps generalizing m with
  | nil => rfl
  | cons p ps ih =>
    have hne : i ≠ tileIndex c ox oy p := fun he => h ⟨p, he⟩
    rw [tileCells, ih, lookupCell_storeCell_other m (val p) hne]

/-- A pixel not stored keeps its cell. -/
theorem lookupCell_tileCells_notMem {c : Canvas} {ox oy : Nat} (val : Fin 16 → Word) (hx : ox + 3 < c.width)
    (hy : oy + 3 < c.height) {p : Fin 16} {ps : List (Fin 16)} (h : p ∉ ps) (m : Cells) :
    lookupCell (tileCells c ox oy val ps m) (tileIndex c ox oy p) = lookupCell m (tileIndex c ox oy p) := by
  induction ps generalizing m with
  | nil => rfl
  | cons q ps ih =>
    simp only [List.mem_cons, not_or] at h
    have hne : tileIndex c ox oy p ≠ tileIndex c ox oy q := fun he => h.1 (tileIndex_inj hx hy he)
    rw [tileCells, ih h.2, lookupCell_storeCell_other m (val q) hne]

/-- A stored pixel's cell holds its word. -/
theorem lookupCell_tileCells_mem {c : Canvas} {ox oy : Nat} (val : Fin 16 → Word) (hx : ox + 3 < c.width)
    (hy : oy + 3 < c.height) {p : Fin 16} {ps : List (Fin 16)} (hn : ps.Nodup) (h : p ∈ ps) (m : Cells) :
    lookupCell (tileCells c ox oy val ps m) (tileIndex c ox oy p) = some (val p) := by
  induction ps generalizing m with
  | nil => cases h
  | cons q ps ih =>
    rw [List.nodup_cons] at hn
    rcases List.mem_cons.1 h with rfl | h
    · rw [tileCells, lookupCell_tileCells_notMem val hx hy hn.1, lookupCell_storeCell_same]
    · rw [tileCells, ih hn.2 h]

/-- Every pixel of a block is in the loop, once. -/
theorem mem_allPixels (p : Fin 16) : p ∈ allPixels := by
  revert p
  decide

theorem nodup_allPixels : allPixels.Nodup := by decide

/-- The pixel loop on a tile inside the canvas, where each pixel's word does not depend on the pixels stored before
it. -/
theorem pixelLoop_tile {body : Fin 16 → State → State} {val : Fin 16 → Word} {ox oy w h : Nat} (hx : ox + 3 < w)
    (hy : oy + 3 < h) (s : State)
    (hbody : ∀ (p q : Fin 16) (m : Cells), body p ({ s with canvas := some ⟨w, h, m⟩ }.setPix q)
      = ({ s with canvas := some ⟨w, h, m⟩ }.setPix q).canvasStore (ox + p.val % 4) (oy + p.val / 4) (val p))
    (hf : s.fault = none) (ps : List (Fin 16)) (q : Fin 16) (c : Canvas) (hw : c.width = w) (hh : c.height = h)
    (m : Cells) :
    pixelLoop body ps ({ s with canvas := some ⟨w, h, m⟩ }.setPix q)
      = { s with canvas := some ⟨w, h, tileCells c ox oy val ps m⟩ }.setPix 0 := by
  induction ps generalizing q m with
  | nil => rfl
  | cons p ps ih =>
    have hp := p.isLt
    have h1 : body p ({ s with canvas := some ⟨w, h, m⟩ }.setPix p)
        = { s with canvas := some ⟨w, h, storeCell m (tileIndex c ox oy p) (val p)⟩ }.setPix p := by
      rw [hbody, State.canvasStore_inside (c := ⟨w, h, m⟩) (val p) rfl (show _ < w by omega) (show _ < h by omega)]
      simp only [tileIndex, storageIndex, hw, hh]
      rfl
    have h0 : ({ s with canvas := some ⟨w, h, m⟩ }.setPix q).setPix p
        = { s with canvas := some ⟨w, h, m⟩ }.setPix p := rfl
    have h2 := State.andThen_live
      (s := { s with canvas := some ⟨w, h, storeCell m (tileIndex c ox oy p) (val p)⟩ }.setPix p)
      (pixelLoop body ps) hf
    rw [pixelLoop, h0, h1, h2, ih]
    rfl

/-- Storing the 16 pixels of a tile inside the canvas. -/
theorem storePixels_tile {alpha : AlphaRule} {val : Fin 16 → Word} {ox oy : Nat} {s : State} {c : Canvas}
    (hf : s.fault = none) (hc : s.canvas = some c) (hx : ox + 3 < c.width) (hy : oy + 3 < c.height)
    (hval : ∀ (p : Fin 16) (u : State), u.dp = s.dp → u.pal = s.pal → u.aramp = s.aramp → u.flags = s.flags →
      storePixel alpha ox oy p u = u.canvasStore (ox + p.val % 4) (oy + p.val / 4) (val p)) :
    storePixels alpha ox oy s
      = { s with
          canvas := some { c with cells := tileCells c ox oy val allPixels c.cells }
          seq := { s.seq with pix := 0 } } := by
  have h := pixelLoop_tile (body := storePixel alpha ox oy) (val := val) hx hy s
    (fun p q m => hval p _ rfl rfl rfl rfl) hf allPixels s.seq.pix c rfl rfl c.cells
  have hs : ({ s with canvas := some ⟨c.width, c.height, c.cells⟩ }.setPix s.seq.pix) = s := by
    cases s
    simp only at hc
    subst hc
    rfl
  rw [hs] at h
  exact h

/-- A canvas write outside the canvas only raises the fault (R293). -/
theorem State.canvasStore_outside {s : State} {c : Canvas} {x y : Nat} (v : Word) (hc : s.canvas = some c)
    (h : c.width ≤ x ∨ c.height ≤ y) : s.canvasStore x y v = s.raise .canvasBounds := by
  have hn : ¬ (x < c.width ∧ y < c.height) := by omega
  simp [State.canvasStore, hc, hn]

/-- The pixel loop on a tile that leaves the canvas: the pixels `pre` before the first one outside are stored, and the
loop stops at that pixel with the fault (R293). -/
theorem pixelLoop_leaves {body : Fin 16 → State → State} {val : Fin 16 → Word} {ox oy w h : Nat} (s : State)
    (hbody : ∀ (p q : Fin 16) (m : Cells), body p ({ s with canvas := some ⟨w, h, m⟩ }.setPix q)
      = ({ s with canvas := some ⟨w, h, m⟩ }.setPix q).canvasStore (ox + p.val % 4) (oy + p.val / 4) (val p))
    (hf : s.fault = none) (pre post : List (Fin 16)) (p : Fin 16)
    (hpre : ∀ q ∈ pre, ox + q.val % 4 < w ∧ oy + q.val / 4 < h)
    (hp : w ≤ ox + p.val % 4 ∨ h ≤ oy + p.val / 4) (q : Fin 16) (c : Canvas) (hw : c.width = w) (hh : c.height = h)
    (m : Cells) :
    pixelLoop body (pre ++ p :: post) ({ s with canvas := some ⟨w, h, m⟩ }.setPix q)
      = ({ s with canvas := some ⟨w, h, tileCells c ox oy val pre m⟩ }.setPix p).raise .canvasBounds := by
  induction pre generalizing q m with
  | nil =>
    have h0 : ({ s with canvas := some ⟨w, h, m⟩ }.setPix q).setPix p
        = { s with canvas := some ⟨w, h, m⟩ }.setPix p := rfl
    rw [List.nil_append, pixelLoop, h0, hbody, State.canvasStore_outside (c := ⟨w, h, m⟩) (val p) rfl hp]
    rfl
  | cons r pre ih =>
    obtain ⟨hx, hy⟩ := hpre r (List.mem_cons_self ..)
    have h1 : body r ({ s with canvas := some ⟨w, h, m⟩ }.setPix r)
        = { s with canvas := some ⟨w, h, storeCell m (tileIndex c ox oy r) (val r)⟩ }.setPix r := by
      rw [hbody, State.canvasStore_inside (c := ⟨w, h, m⟩) (val r) rfl hx hy]
      simp only [tileIndex, storageIndex, hw, hh]
      rfl
    have h0 : ({ s with canvas := some ⟨w, h, m⟩ }.setPix q).setPix r
        = { s with canvas := some ⟨w, h, m⟩ }.setPix r := rfl
    have h2 := State.andThen_live
      (s := { s with canvas := some ⟨w, h, storeCell m (tileIndex c ox oy r) (val r)⟩ }.setPix r)
      (pixelLoop body (pre ++ p :: post)) hf
    rw [List.cons_append, pixelLoop, h0, h1, h2, ih fun q hq => hpre q (List.mem_cons_of_mem _ hq)]
    rfl

/-- Every pixel splits the block's pixels into those before it and those after it. -/
theorem allPixels_split (p : Fin 16) :
    ∃ pre post, allPixels = pre ++ p :: post ∧ ∀ q, q ∈ pre ↔ q < p := by
  refine ⟨allPixels.take p.val, allPixels.drop (p.val + 1), ?_, ?_⟩ <;> revert p <;> decide

/-- A tile that leaves the canvas has a first pixel outside it. -/
theorem exists_first_outside {ox oy w h : Nat} (ho : w ≤ ox + 3 ∨ h ≤ oy + 3) :
    ∃ p : Fin 16, (w ≤ ox + p.val % 4 ∨ h ≤ oy + p.val / 4)
      ∧ ∀ q : Fin 16, q < p → ox + q.val % 4 < w ∧ oy + q.val / 4 < h := by
  have hex : ∃ n, ∃ hn : n < 16, w ≤ ox + n % 4 ∨ h ≤ oy + n / 4 := ⟨15, by decide, by omega⟩
  obtain ⟨hn, hp⟩ := Nat.find_spec hex
  refine ⟨⟨Nat.find hex, hn⟩, hp, fun q hq => ?_⟩
  have := Nat.find_min hex (m := q.val) hq
  have hq16 := q.isLt
  by_contra hc
  exact this ⟨hq16, by omega⟩

/-- Storing the pixels of a tile that leaves the canvas: the pixels before the first one outside, then the fault. -/
theorem storePixels_leaves {alpha : AlphaRule} {val : Fin 16 → Word} {ox oy : Nat} {s : State} {c : Canvas}
    (hf : s.fault = none) (hc : s.canvas = some c) (ho : c.width ≤ ox + 3 ∨ c.height ≤ oy + 3)
    (hval : ∀ (p : Fin 16) (u : State), u.dp = s.dp → u.pal = s.pal → u.aramp = s.aramp → u.flags = s.flags →
      storePixel alpha ox oy p u = u.canvasStore (ox + p.val % 4) (oy + p.val / 4) (val p)) :
    ∃ (p : Fin 16) (pre : List (Fin 16)), (c.width ≤ ox + p.val % 4 ∨ c.height ≤ oy + p.val / 4)
      ∧ (∀ q, q ∈ pre ↔ q < p) ∧ (∀ q : Fin 16, q < p → ox + q.val % 4 < c.width ∧ oy + q.val / 4 < c.height)
      ∧ storePixels alpha ox oy s
        = { s with
            canvas := some { c with cells := tileCells c ox oy val pre c.cells }
            fault := some .canvasBounds
            seq := { s.seq with pix := p } } := by
  obtain ⟨p, hp, hlt⟩ := exists_first_outside ho
  obtain ⟨pre, post, hsplit, hmem⟩ := allPixels_split p
  have h := pixelLoop_leaves (body := storePixel alpha ox oy) (val := val) (w := c.width) (h := c.height) s
    (fun p q m => hval p _ rfl rfl rfl rfl) hf pre post p (fun q hq => hlt q ((hmem q).1 hq)) hp s.seq.pix c rfl rfl
    c.cells
  have hs : ({ s with canvas := some ⟨c.width, c.height, c.cells⟩ }.setPix s.seq.pix) = s := by
    cases s
    simp only at hc
    subst hc
    rfl
  rw [hs, ← hsplit] at h
  exact ⟨p, pre, hp, hmem, hlt, h⟩

end Sys2Proof.Machine
end

