-- ==== Sys2Proof/Laws/Blocks.lean ====
section
/-! SUPPORT. What loading and decoding a block that can be read does (R126 to R128, R200, R322). -/

namespace Sys2Proof.Machine

/-- A load that can be read. -/
theorem State.load_some {s : State} {a n v : Nat} (put : State → Nat → State) (h : inRead s a n = some v) :
    s.load a n put = put s v := by
  simp [State.load, h]

/-- The colour operands of a block that can be read. -/
theorem loadColours_some {s : State} {a n0 n1 n2 : Nat} (hf : s.fault = none) (h0 : inRead s a 2 = some n0)
    (h1 : inRead s (a + 2) 2 = some n1) (h2 : inRead s (a + 4) 4 = some n2) :
    loadColours a s = ((s.setC0 n0).setC1 n1).setCsel n2 := by
  have e0 : loadC0 a s = s.setC0 n0 := State.load_some _ h0
  have e1 : loadC1 (a + 2) (s.setC0 n0) = (s.setC0 n0).setC1 n1 :=
    State.load_some _ ((inRead_congr rfl rfl _ _).trans h1)
  have e2 : loadCsel (a + 4) ((s.setC0 n0).setC1 n1) = ((s.setC0 n0).setC1 n1).setCsel n2 :=
    State.load_some _ ((inRead_congr rfl rfl _ _).trans h2)
  rw [loadColours, e0, State.andThen_live (s := s.setC0 n0) _ hf, e1,
    State.andThen_live (s := (s.setC0 n0).setC1 n1) _ hf, e2]

/-- The operands of a BC2 or BC3 block that can be read. -/
theorem loadAlphaBlock_some {s : State} {a nf n0 n1 n2 : Nat} (hf : s.fault = none) (h : inRead s a 8 = some nf)
    (h0 : inRead s (a + 8) 2 = some n0) (h1 : inRead s (a + 10) 2 = some n1)
    (h2 : inRead s (a + 12) 4 = some n2) :
    loadAlphaBlock a s = (((s.setAfield nf).setC0 n0).setC1 n1).setCsel n2 := by
  have e : loadAfield a s = s.setAfield nf := State.load_some _ h
  rw [loadAlphaBlock, e, State.andThen_live (s := s.setAfield nf) _ hf,
    loadColours_some (s := s.setAfield nf) hf ((inRead_congr rfl rfl _ _).trans h0)
      ((inRead_congr rfl rfl _ _).trans h1) ((inRead_congr rfl rfl _ _).trans h2)]

/-- BC1's palette on a state with both colours loaded. -/
theorem bc1Palette_some {s : State} {c0 c1 : BitVec 16} (h0 : s.dp.c0 = some c0) (h1 : s.dp.c1 = some c1) :
    bc1Palette s = { s.setMode4 (bc1Mode4 c0 c1) with
      pal := if bc1Mode4 c0 c1 then ramp4 c0 c1 s.pal else ramp3 s.params.bc1T3Rgb c0 c1 s.pal } := by
  simp [bc1Palette, h0, h1]

/-- The always-four-colour palette on a state with both colours loaded. -/
theorem fourColourPalette_some {s : State} {c0 c1 : BitVec 16} (h0 : s.dp.c0 = some c0) (h1 : s.dp.c1 = some c1) :
    fourColourPalette s = { s.setMode4 true with pal := ramp4 c0 c1 s.pal } := by
  simp [fourColourPalette, h0, h1]

/-- BC3's alpha ramp on a state with AFIELD loaded. -/
theorem bc3AlphaRamp_some {s : State} {f : BitVec 64} (h : s.dp.afield = some f) :
    bc3AlphaRamp s = { s.setAmode7 (bc3Amode7 (f.extractLsb' 0 8) (f.extractLsb' 8 8)) with
      aramp := alphaRamp (f.extractLsb' 0 8) (f.extractLsb' 8 8) } := by
  simp [bc3AlphaRamp, h]

/-- What the always-four-colour palette leaves alone. -/
theorem fourColourPalette_frame {s : State} {c0 c1 : BitVec 16} (h0 : s.dp.c0 = some c0) (h1 : s.dp.c1 = some c1) :
    (fourColourPalette s).fault = s.fault ∧ (fourColourPalette s).canvas = s.canvas
      ∧ (fourColourPalette s).dp = s.dp ∧ (fourColourPalette s).seq = s.seq := by
  rw [fourColourPalette_some h0 h1]
  exact ⟨rfl, rfl, rfl, rfl⟩

/-- What BC3's alpha ramp leaves alone. -/
theorem bc3AlphaRamp_frame {s : State} {f : BitVec 64} (h : s.dp.afield = some f) :
    (bc3AlphaRamp s).fault = s.fault ∧ (bc3AlphaRamp s).canvas = s.canvas ∧ (bc3AlphaRamp s).dp = s.dp
      ∧ (bc3AlphaRamp s).seq = s.seq := by
  rw [bc3AlphaRamp_some h]
  exact ⟨rfl, rfl, rfl, rfl⟩

/-- The pixel word BC1 resolves on a state with its operands loaded (R206). -/
def bc1Value (s : State) (csel : BitVec 32) (p : Fin 16) : Word :=
  palPixel s.pal[(colourIndex csel p.val).toFin]
    (if s.flags.mode4 = false ∧ colourIndex csel p.val = 3 then 0x00 else 0xFF)

/-- The pixel word BC2 resolves (R243). -/
def bc2Value (s : State) (csel : BitVec 32) (f : BitVec 64) (p : Fin 16) : Word :=
  palPixel s.pal[(colourIndex csel p.val).toFin] (nibbleAlpha (alphaNibble f p.val))

/-- The pixel word BC3 resolves (R263). -/
def bc3Value (s : State) (csel : BitVec 32) (f : BitVec 64) (p : Fin 16) : Word :=
  palPixel s.pal[(colourIndex csel p.val).toFin] s.aramp[(alphaIndex f p.val).toFin]

/-- BC1's pixels on a state with CSEL loaded. -/
theorem storePixel_bc1 {s u : State} {csel : BitVec 32} (hs : s.dp.csel = some csel) (p : Fin 16) (ox oy : Nat)
    (h1 : u.dp = s.dp) (h2 : u.pal = s.pal) (h4 : u.flags = s.flags) :
    storePixel bc1Alpha ox oy p u = u.canvasStore (ox + p.val % 4) (oy + p.val / 4) (bc1Value s csel p) := by
  simp [storePixel, bc1Alpha, bc1Value, h1, h2, h4, hs]

/-- BC2's pixels on a state with CSEL and AFIELD loaded. -/
theorem storePixel_bc2 {s u : State} {csel : BitVec 32} {f : BitVec 64} (hs : s.dp.csel = some csel)
    (hf : s.dp.afield = some f) (p : Fin 16) (ox oy : Nat) (h1 : u.dp = s.dp) (h2 : u.pal = s.pal) :
    storePixel bc2Alpha ox oy p u = u.canvasStore (ox + p.val % 4) (oy + p.val / 4) (bc2Value s csel f p) := by
  simp [storePixel, bc2Alpha, bc2Value, h1, h2, hs, hf]

/-- BC3's pixels on a state with CSEL, AFIELD and ARAMP loaded. -/
theorem storePixel_bc3 {s u : State} {csel : BitVec 32} {f : BitVec 64} (hs : s.dp.csel = some csel)
    (hf : s.dp.afield = some f) (p : Fin 16) (ox oy : Nat) (h1 : u.dp = s.dp) (h2 : u.pal = s.pal)
    (h3 : u.aramp = s.aramp) :
    storePixel bc3Alpha ox oy p u = u.canvasStore (ox + p.val % 4) (oy + p.val / 4) (bc3Value s csel f p) := by
  simp [storePixel, bc3Alpha, bc3Value, h1, h2, h3, hs, hf]

/-- DECODE_BC1 of a block that can be read, on a tile inside the canvas: the state after the palette, with the 16
words in the tile and PIX 0. -/
theorem bc1Block_tile {s : State} {c : Canvas} {a ox oy n0 n1 n2 : Nat} (hf : s.fault = none)
    (hc : s.canvas = some c) (hx : ox + 3 < c.width) (hy : oy + 3 < c.height) (h0 : inRead s a 2 = some n0)
    (h1 : inRead s (a + 2) 2 = some n1) (h2 : inRead s (a + 4) 4 = some n2) {u : State}
    (hu : u = bc1Palette (((s.setC0 n0).setC1 n1).setCsel n2)) :
    bc1Block a ox oy s = { u with
      canvas := some { c with
        cells := tileCells c ox oy (bc1Value u (BitVec.ofNat 32 n2)) allPixels c.cells }
      seq := { s.seq with pix := 0 } } := by
  have hs := bc1Palette_some (s := ((s.setC0 n0).setC1 n1).setCsel n2) rfl rfl
  rw [← hu] at hs
  have huf : u.fault = none := by rw [hs]; exact hf
  have huc : u.canvas = some c := by rw [hs]; exact hc
  have hud : u.dp.csel = some (BitVec.ofNat 32 n2) := by rw [hs]; rfl
  have huq : u.seq = s.seq := by rw [hs]; rfl
  rw [bc1Block, loadColours_some hf h0 h1 h2, State.andThen_live (s := ((s.setC0 n0).setC1 n1).setCsel n2) _ hf,
    ← hu, State.andThen_live _ huf,
    storePixels_tile huf huc hx hy fun p w e1 e2 _ e4 => storePixel_bc1 hud p ox oy e1 e2 e4, huq]

/-- DECODE_BC2 of a block that can be read, on a tile inside the canvas. -/
theorem bc2Block_tile {s : State} {c : Canvas} {a ox oy nf n0 n1 n2 : Nat} (hf : s.fault = none)
    (hc : s.canvas = some c) (hx : ox + 3 < c.width) (hy : oy + 3 < c.height) (h : inRead s a 8 = some nf)
    (h0 : inRead s (a + 8) 2 = some n0) (h1 : inRead s (a + 10) 2 = some n1)
    (h2 : inRead s (a + 12) 4 = some n2) {u : State}
    (hu : u = fourColourPalette ((((s.setAfield nf).setC0 n0).setC1 n1).setCsel n2)) :
    bc2Block a ox oy s = { u with
      canvas := some { c with
        cells := tileCells c ox oy (bc2Value u (BitVec.ofNat 32 n2) (BitVec.ofNat 64 nf)) allPixels c.cells }
      seq := { s.seq with pix := 0 } } := by
  have hs := fourColourPalette_some (s := (((s.setAfield nf).setC0 n0).setC1 n1).setCsel n2) rfl rfl
  rw [← hu] at hs
  have huf : u.fault = none := by rw [hs]; exact hf
  have huc : u.canvas = some c := by rw [hs]; exact hc
  have hud : u.dp.csel = some (BitVec.ofNat 32 n2) := by rw [hs]; rfl
  have hua : u.dp.afield = some (BitVec.ofNat 64 nf) := by rw [hs]; rfl
  have huq : u.seq = s.seq := by rw [hs]; rfl
  rw [bc2Block, loadAlphaBlock_some hf h h0 h1 h2,
    State.andThen_live (s := (((s.setAfield nf).setC0 n0).setC1 n1).setCsel n2) _ hf, ← hu,
    State.andThen_live _ huf,
    storePixels_tile huf huc hx hy fun p w e1 e2 _ _ => storePixel_bc2 hud hua p ox oy e1 e2, huq]

/-- DECODE_BC3 of a block that can be read, on a tile inside the canvas. -/
theorem bc3Block_tile {s : State} {c : Canvas} {a ox oy nf n0 n1 n2 : Nat} (hf : s.fault = none)
    (hc : s.canvas = some c) (hx : ox + 3 < c.width) (hy : oy + 3 < c.height) (h : inRead s a 8 = some nf)
    (h0 : inRead s (a + 8) 2 = some n0) (h1 : inRead s (a + 10) 2 = some n1)
    (h2 : inRead s (a + 12) 4 = some n2) {u : State}
    (hu : u = bc3AlphaRamp (fourColourPalette ((((s.setAfield nf).setC0 n0).setC1 n1).setCsel n2))) :
    bc3Block a ox oy s = { u with
      canvas := some { c with
        cells := tileCells c ox oy (bc3Value u (BitVec.ofNat 32 n2) (BitVec.ofNat 64 nf)) allPixels c.cells }
      seq := { s.seq with pix := 0 } } := by
  obtain ⟨p1, p2, p3, p4⟩ :=
    fourColourPalette_frame (s := (((s.setAfield nf).setC0 n0).setC1 n1).setCsel n2) rfl rfl
  have hpa : (fourColourPalette ((((s.setAfield nf).setC0 n0).setC1 n1).setCsel n2)).dp.afield
      = some (BitVec.ofNat 64 nf) := congrArg Dp.afield p3
  have hpf : (fourColourPalette ((((s.setAfield nf).setC0 n0).setC1 n1).setCsel n2)).fault = none := p1.trans hf
  obtain ⟨q1, q2, q3, q4⟩ := bc3AlphaRamp_frame hpa
  rw [← hu] at q1 q2 q3 q4
  have huf : u.fault = none := q1.trans hpf
  have huc : u.canvas = some c := (q2.trans p2).trans hc
  have hud : u.dp.csel = some (BitVec.ofNat 32 n2) := congrArg Dp.csel (q3.trans p3)
  have hua : u.dp.afield = some (BitVec.ofNat 64 nf) := congrArg Dp.afield (q3.trans p3)
  have huq : u.seq = s.seq := q4.trans p4
  rw [bc3Block, loadAlphaBlock_some hf h h0 h1 h2,
    State.andThen_live (s := (((s.setAfield nf).setC0 n0).setC1 n1).setCsel n2) _ hf,
    State.andThen_live _ hpf, ← hu, State.andThen_live _ huf,
    storePixels_tile huf huc hx hy fun p w e1 e2 e3 _ => storePixel_bc3 hud hua p ox oy e1 e2 e3, huq]

/-- A decoder of a block that IN holds, on a tile inside the canvas, stores 16 words in the tile, sets no fault and leaves
the sequencer with PIX 0 (R200, R322). -/
theorem decodeBlock_tile {s : State} {c : Canvas} (v : Variant) {a ox oy : Nat} (hf : s.fault = none)
    (hc : s.canvas = some c) (hx : ox + 3 < c.width) (hy : oy + 3 < c.height)
    (ha : a + blockSize v ≤ s.inLen.toNat)
    (hin : ∀ b, b < s.inLen.toNat → (lookupCell s.inMem b).isSome = true) :
    ∃ val : Fin 16 → Word,
      (decodeBlock v a ox oy s).fault = none
        ∧ (decodeBlock v a ox oy s).canvas = some { c with cells := tileCells c ox oy val allPixels c.cells }
        ∧ (decodeBlock v a ox oy s).seq = { s.seq with pix := 0 } := by
  cases v with
  | bc1 =>
    simp only [blockSize] at ha
    obtain ⟨n0, h0⟩ := inRead_isSome (s := s) (a := a) (n := 2) (by omega) hin
    obtain ⟨n1, h1⟩ := inRead_isSome (s := s) (a := a + 2) (n := 2) (by omega) hin
    obtain ⟨n2, h2⟩ := inRead_isSome (s := s) (a := a + 4) (n := 4) (by omega) hin
    refine ⟨_, ?_, by rw [decodeBlock, bc1Block_tile hf hc hx hy h0 h1 h2 rfl],
      by rw [decodeBlock, bc1Block_tile hf hc hx hy h0 h1 h2 rfl]⟩
    rw [decodeBlock, bc1Block_tile hf hc hx hy h0 h1 h2 rfl, bc1Palette_some rfl rfl]
    exact hf
  | bc2 =>
    simp only [blockSize] at ha
    obtain ⟨nf, h⟩ := inRead_isSome (s := s) (a := a) (n := 8) (by omega) hin
    obtain ⟨n0, h0⟩ := inRead_isSome (s := s) (a := a + 8) (n := 2) (by omega) hin
    obtain ⟨n1, h1⟩ := inRead_isSome (s := s) (a := a + 10) (n := 2) (by omega) hin
    obtain ⟨n2, h2⟩ := inRead_isSome (s := s) (a := a + 12) (n := 4) (by omega) hin
    refine ⟨_, ?_, by rw [decodeBlock, bc2Block_tile hf hc hx hy h h0 h1 h2 rfl],
      by rw [decodeBlock, bc2Block_tile hf hc hx hy h h0 h1 h2 rfl]⟩
    rw [decodeBlock, bc2Block_tile hf hc hx hy h h0 h1 h2 rfl, fourColourPalette_some rfl rfl]
    exact hf
  | bc3 =>
    simp only [blockSize] at ha
    obtain ⟨nf, h⟩ := inRead_isSome (s := s) (a := a) (n := 8) (by omega) hin
    obtain ⟨n0, h0⟩ := inRead_isSome (s := s) (a := a + 8) (n := 2) (by omega) hin
    obtain ⟨n1, h1⟩ := inRead_isSome (s := s) (a := a + 10) (n := 2) (by omega) hin
    obtain ⟨n2, h2⟩ := inRead_isSome (s := s) (a := a + 12) (n := 4) (by omega) hin
    refine ⟨_, ?_, by rw [decodeBlock, bc3Block_tile hf hc hx hy h h0 h1 h2 rfl],
      by rw [decodeBlock, bc3Block_tile hf hc hx hy h h0 h1 h2 rfl]⟩
    obtain ⟨p1, -, p3, -⟩ :=
      fourColourPalette_frame (s := (((s.setAfield nf).setC0 n0).setC1 n1).setCsel n2) rfl rfl
    rw [decodeBlock, bc3Block_tile hf hc hx hy h h0 h1 h2 rfl]
    exact ((bc3AlphaRamp_frame (congrArg Dp.afield p3)).1.trans p1).trans hf

end Sys2Proof.Machine
end

