-- ==== Sys2Proof/Laws/Bytes.lean ====
section
/-! SUPPORT. Laws of the byte order and of the decoder's readers. -/

namespace Sys2Proof

@[simp] theorem length_leBytes (n v : Nat) : (leBytes n v).length = n := by
  induction n generalizing v with
  | zero => rfl
  | succ n ih => simp [leBytes, ih]

/-- Little-endian bytes read back as the number, as far as they reach. -/
theorem leNat_leBytes (n v : Nat) : leNat (leBytes n v) = v % 256 ^ n := by
  induction n generalizing v with
  | zero => simp [leBytes, leNat, Nat.mod_one]
  | succ n ih =>
    simp only [leBytes, leNat, ih, BitVec.toNat_ofNat]
    rw [pow_succ' 256 n, Nat.mod_mul (a := 256)]

/-- n bytes hold a number below 256^n. -/
theorem leNat_lt (bs : List Byte) : leNat bs < 256 ^ bs.length := by
  induction bs with
  | nil => simp [leNat]
  | cons b bs ih =>
    have := b.isLt
    simp only [leNat, List.length_cons, pow_succ']
    omega

/-- Reading n bytes off the front of an n-byte number. -/
theorem takeNat_leBytes_append (n v : Nat) (rest : List Byte) :
    takeNat n (leBytes n v ++ rest) = .ok (v % 256 ^ n, rest) := by
  have h1 : (leBytes n v ++ rest).take n = leBytes n v := by
    rw [List.take_append_of_le_length (by simp)]
    simp
  have h2 : (leBytes n v ++ rest).drop n = rest := by
    rw [List.drop_append_of_le_length (by simp)]
    simp
  simp [takeNat, h1, h2, leNat_leBytes]

/-- A word that fits four bytes is read back whole. -/
theorem takeNat_word (v : Nat) (h : v < 2 ^ 32) (rest : List Byte) :
    takeNat 4 (leBytes 4 v ++ rest) = .ok (v, rest) := by
  rw [takeNat_leBytes_append, Nat.mod_eq_of_lt (by omega)]

/-- The pattern of a variant selects it. -/
@[simp] theorem variantOf_vselPattern (v : Variant) : variantOf (vselPattern v) = some v := by
  cases v <;> decide

end Sys2Proof
end

