-- ==== Sys2Proof/Laws/PerInstr.lean ====
section
/-! SUPPORT. The per-instruction family Shape: an encoding has as many bytes as its code space and operands take, and at
most the longest instruction's. -/

namespace Sys2Proof

/-- The bytes an instruction has: four for a command, one for a step, six and three operand words for a decoder, one and
three operand words for a canvas write. -/
def instrBytes : Instr → Nat
  | .nop => 4
  | .convert _ => 4
  | .parse => 1
  | .setup => 1
  | .decode => 1
  | .decodeBc1 _ _ _ => 18
  | .decodeBc2 _ _ _ => 18
  | .decodeBc3 _ _ _ => 18
  | .canvasWrite _ _ _ => 13
  | .emit => 1
  | .nextLevel => 1
  | .endRun => 1

/-- The encoding of `i` has the length of its form. -/
def Laws.Shape.Statement (i : Instr) : Prop :=
  (encode i).length = instrBytes i ∧ instrBytes i ≤ maxInstrBytes

theorem Laws.Shape.nop : Laws.Shape.Statement .nop := by
  simp [Laws.Shape.Statement, encode, instrBytes, maxInstrBytes]

theorem Laws.Shape.convert (all : Bool) : Laws.Shape.Statement (.convert all) := by
  simp [Laws.Shape.Statement, encode, instrBytes, maxInstrBytes]

theorem Laws.Shape.parse : Laws.Shape.Statement .parse := by
  simp [Laws.Shape.Statement, encode, instrBytes, maxInstrBytes]

theorem Laws.Shape.setup : Laws.Shape.Statement .setup := by
  simp [Laws.Shape.Statement, encode, instrBytes, maxInstrBytes]

theorem Laws.Shape.decode : Laws.Shape.Statement .decode := by
  simp [Laws.Shape.Statement, encode, instrBytes, maxInstrBytes]

theorem Laws.Shape.decodeBc1 (a ox oy : Nat) : Laws.Shape.Statement (.decodeBc1 a ox oy) := by
  simp [Laws.Shape.Statement, encode, encodeBlock, instrBytes, maxInstrBytes]

theorem Laws.Shape.decodeBc2 (a ox oy : Nat) : Laws.Shape.Statement (.decodeBc2 a ox oy) := by
  simp [Laws.Shape.Statement, encode, encodeBlock, instrBytes, maxInstrBytes]

theorem Laws.Shape.decodeBc3 (a ox oy : Nat) : Laws.Shape.Statement (.decodeBc3 a ox oy) := by
  simp [Laws.Shape.Statement, encode, encodeBlock, instrBytes, maxInstrBytes]

theorem Laws.Shape.canvasWrite (x y : Nat) (v : Word) : Laws.Shape.Statement (.canvasWrite x y v) := by
  simp [Laws.Shape.Statement, encode, instrBytes, maxInstrBytes]

theorem Laws.Shape.emit : Laws.Shape.Statement .emit := by
  simp [Laws.Shape.Statement, encode, instrBytes, maxInstrBytes]

theorem Laws.Shape.nextLevel : Laws.Shape.Statement .nextLevel := by
  simp [Laws.Shape.Statement, encode, instrBytes, maxInstrBytes]

theorem Laws.Shape.endRun : Laws.Shape.Statement .endRun := by
  simp [Laws.Shape.Statement, encode, instrBytes, maxInstrBytes]

end Sys2Proof
end

