-- ==== Sys2Proof/Laws/Step.lean ====
section
/-! SUPPORT. What one step can be: the operation on the issue latch, a host action, or the sequencer's step. -/

namespace Sys2Proof.Machine

/-- An operation on the issue latch runs first. -/
theorem step_issue {s : State} {i : Instr} (h : s.issue = some i) : step s = exec i { s with issue := none } := by
  simp [step, fetch, h]

/-- With nothing on the issue latch and nothing on the host's script the engine takes its turn. -/
theorem fetch_engine {s : State} (h1 : s.issue = none) (h2 : s.host = []) : fetch s = fetchEngine s := by
  simp [fetch, h1, h2]

/-- With nothing on the issue latch the host's next action is taken. -/
theorem fetch_host {s : State} {e : HostEvent} {rest : List HostEvent} (h1 : s.issue = none)
    (h2 : s.host = e :: rest) : fetch s = fetchHost e { s with host := rest } := by
  simp [fetch, h1, h2]

/-- The engine's turn in a step that STEP names. -/
theorem fetchEngine_run {s : State} {i : Instr} (h : stepInstr s.seq.step = some i) : fetchEngine s = .run i s := by
  simp [fetchEngine, h]

/-- A CMD write decodes from its own four bytes as the word does. -/
theorem decodeCmd_word (w : Word) :
    decode .cmd (leBytes 4 w.toNat)
      = match decodeCmdWord w with
        | .error e => .error e
        | .ok i => .ok (i, []) := by
  have h := takeNat_word w.toNat w.isLt []
  rw [List.append_nil] at h
  unfold decode decodeCmd
  rw [h]
  show (match decodeCmdWord (BitVec.ofNat 32 w.toNat) with
    | .error e => Except.error e
    | .ok i => .ok (i, [])) = _
  rw [BitVec.ofNat_toNat, BitVec.setWidth_eq]

end Sys2Proof.Machine
end

