-- ==== Sys2Proof/Tests/Slice0.lean ====
section
/-! SUPPORT. The model's own tests, with expected values from spec/95_test_vectors.md and the rules' worked examples, and
one witness per statement that has hypotheses. -/

namespace Sys2Proof.Tests

open Sys2Proof Sys2Proof.Machine Sys2Proof.Claims

/-! ### Small states -/

/-- The conventions of 95_test_vectors.md: ZERO, FAIL, a large enough capacity. -/
def params0 : Params where
  bc1T3Rgb := .zero
  dimPolicy := .fail
  canvasCapacity := 4096
  bmpXppm := 0
  bmpYppm := 0
  bmpCsType := 1
  maxInLen := 2 ^ 32 - 1

/-- Reset, with the conventional parameters. -/
def base : State := { State.reset with params := params0 }

/-- The state with a file in IN. -/
def withIn (s : State) (bs : List Byte) : State :=
  { s with inMem := placeBytes 0 bs, inLen := BitVec.ofNat 32 bs.length }

/-- A file in IN and a blank canvas, as a decoder needs. -/
def blockState (bs : List Byte) (w h : Nat) : State := { withIn base bs with canvas := some (blankCanvas w h) }

/-- A single-level header (R120): "BLP2", the selector fields, the size, one directory entry. -/
def headerBytes (ty comp at_ w h off len : Nat) : List Byte :=
  [0x42, 0x4C, 0x50, 0x32] ++ leBytes 4 ty ++ leBytes 1 comp ++ leBytes 1 0 ++ leBytes 1 at_ ++ leBytes 1 0
    ++ leBytes 4 w ++ leBytes 4 h ++ leBytes 4 off ++ leBytes 60 0 ++ leBytes 4 len ++ leBytes 60 0

/-- A run standing at SETUP of level 0 with this header latched. -/
def setupState (ty comp at_ w h off len inLen : Nat) : State :=
  { base with
    inLen := BitVec.ofNat 32 inLen
    hdr := hdrOfBytes (headerBytes ty comp at_ w h off len)
    status := { base.status with busy := true }
    seq := ⟨.setup, 0, 0, 0⟩ }

/-- A next state for which the test holds. -/
def nextIs (o : Answer) (p : State → Bool) : Bool :=
  match o with
  | .next s => p s
  | .fault _ => false
  | .refused _ => false

/-- The answer is this fault. -/
def faultIs (o : Answer) (f : Fault) : Bool :=
  match o with
  | .next _ => false
  | .fault g => decide (g = f)
  | .refused _ => false

/-- The answer is this refusal. -/
def refusedIs (o : Answer) (r : Refusal) : Bool :=
  match o with
  | .next _ => false
  | .fault _ => false
  | .refused q => decide (q = r)

/-- The canvas cells at these indices. -/
def cellsAt (s : State) (is : List Nat) : List (Option Word) := is.map s.canvasCell

/-! ### Well-formedness: an ill-formed term for each check -/

theorem test_wf_bc1_address : (Instr.decodeBc1 (2 ^ 32) 0 0).wf = false := by decide
theorem test_wf_bc1_column : (Instr.decodeBc1 0 (2 ^ 32) 0).wf = false := by decide
theorem test_wf_bc1_row : (Instr.decodeBc1 0 0 (2 ^ 32)).wf = false := by decide
theorem test_wf_bc2_address : (Instr.decodeBc2 (2 ^ 32) 0 0).wf = false := by decide
theorem test_wf_bc2_column : (Instr.decodeBc2 0 (2 ^ 32) 0).wf = false := by decide
theorem test_wf_bc2_row : (Instr.decodeBc2 0 0 (2 ^ 32)).wf = false := by decide
theorem test_wf_bc3_address : (Instr.decodeBc3 (2 ^ 32) 0 0).wf = false := by decide
theorem test_wf_bc3_column : (Instr.decodeBc3 0 (2 ^ 32) 0).wf = false := by decide
theorem test_wf_bc3_row : (Instr.decodeBc3 0 0 (2 ^ 32)).wf = false := by decide
theorem test_wf_canvas_x : (Instr.canvasWrite (2 ^ 32) 0 0).wf = false := by decide
theorem test_wf_canvas_y : (Instr.canvasWrite 0 (2 ^ 32) 0).wf = false := by decide

/-! ### Decoding, from words written out by hand -/

/-- R150: OP 0 with ALL set, 0x00000100, is still NOP. -/
theorem test_decode_nop : decode .cmd [0x00, 0x01, 0x00, 0x00] = .ok (.nop, []) := by rfl
/-- R150: 0x00000101 is CONVERT ALL; R34: 0x000000F1 is CONVERT, bits 7:4 ignored (L2-CMD-4). -/
theorem test_decode_convert : decode .cmd [0x01, 0x01, 0x00, 0x00] = .ok (.convert true, [])
    ∧ decode .cmd [0xF1, 0x00, 0x00, 0x00] = .ok (.convert false, []) := ⟨rfl, rfl⟩
/-- R150: OP 2 to 15 are reserved. -/
theorem test_decode_reserved_op : decode .cmd [0x05, 0x00, 0x00, 0x00] = .error (.reservedOp 5)
    ∧ decode .cmd [0x0F, 0x01, 0x00, 0x00] = .error (.reservedOp 15) := ⟨rfl, rfl⟩
/-- R151: the step codes. -/
theorem test_decode_parse : decode .step [0b001] = .ok (.parse, []) := by rfl
theorem test_decode_setup : decode .step [0b010] = .ok (.setup, []) := by rfl
theorem test_decode_decode : decode .step [0b011] = .ok (.decode, []) := by rfl
theorem test_decode_emit : decode .step [0b100] = .ok (.emit, []) := by rfl
theorem test_decode_next : decode .step [0b101] = .ok (.nextLevel, []) := by rfl
theorem test_decode_end : decode .step [0b110] = .ok (.endRun, []) := by rfl
theorem test_decode_idle_code : decode .step [0b000] = .error .idleCode := by rfl
/-- R151, R292: code 7 with x = 5, y = 1, v = 0x00AA0000. -/
theorem test_decode_canvas_write :
    decode .step [0b111, 5, 0, 0, 0, 1, 0, 0, 0, 0x00, 0x00, 0xAA, 0x00] = .ok (.canvasWrite 5 1 0x00AA0000, []) := by rfl
/-- R152: VSEL 0x000000010200, least significant byte first; block at 148. -/
theorem test_decode_bc1 :
    decode .vsel [0x00, 0x02, 0x01, 0, 0, 0, 0x94, 0, 0, 0, 4, 0, 0, 0, 8, 0, 0, 0] = .ok (.decodeBc1 148 4 8, []) := by rfl
/-- R152: VSEL 0x000000010201. -/
theorem test_decode_bc2 :
    decode .vsel [0x01, 0x02, 0x01, 0, 0, 0, 0xA4, 0, 0, 0, 4, 0, 0, 0, 0, 0, 0, 0] = .ok (.decodeBc2 164 4 0, []) := by rfl
/-- R152: VSEL 0x000000010207. -/
theorem test_decode_bc3 :
    decode .vsel [0x07, 0x02, 0x01, 0, 0, 0, 0x94, 0, 0, 0, 0, 0, 0, 0, 4, 0, 0, 0] = .ok (.decodeBc3 148 0 4, []) := by rfl
/-- R153: alphaType 8 selects no decoder. -/
theorem test_decode_no_variant :
    decode .vsel [0x08, 0x02, 0x01, 0, 0, 0] = .error (.noVariant 0x000000010208) := by rfl

/-! ### Host commands -/

/-- R311: CMD = 0x00000100 changes nothing. -/
theorem test_nop_write : step { base with host := [.write 0 4 0x100] } = .next base := by rfl

/-- L2-CMD-2: STATUS 0x00010102 and OP 5 give 0x00010106. -/
theorem test_reserved_op :
    nextIs (step { base with
        status := { base.status with done := true, levelsVisited := 1, levelsEmitted := 1 }, host := [.write 0 4 5] })
      (fun t => regRead t 4 == 0x00010106#32) = true := by decide

/-- R150, R35, D36: a reserved OP sets BADCMD while BUSY too; the run goes on at SETUP. -/
theorem test_reserved_op_while_busy :
    nextIs (step { setupState 1 2 0 4 4 148 8 156 with host := [.write 0 4 0x10F] })
      (fun t => regRead t 4 == 0x00000005#32 && t.seq.step == .setup) = true := by decide

/-- L2-CMD-5: CONVERT clears BADCMD and sets BUSY. -/
theorem test_convert_clears_badcmd :
    nextIs (step { base with status := { base.status with badCmd := true }, host := [.write 0 4 1] })
      (fun t => regRead t 4 == 1#32 && t.seq.step == .parse && !t.runAll) = true := by decide

/-- L2-CMD-3: CONVERT while BUSY is ignored. -/
theorem test_convert_while_busy :
    nextIs (step { setupState 1 2 0 4 4 148 8 156 with host := [.write 0 4 0x101] })
      (fun t => t.seq.step == .setup && !t.runAll) = true := by decide

/-! ### PARSE -/

/-- L2-HDR-3: three bytes are BAD_MAGIC, STATUS 0x12 once END has run. -/
theorem test_parse_short :
    nextIs (exec .parse (withIn base [0x42, 0x4C, 0x50]))
      (fun t => t.seq.step == .endRun && nextIs (exec .endRun t) (fun u => regRead u 4 == 0x12#32)) = true := by decide

/-- L2-HDR-4: the magic and 100 more bytes are HEADER_TRUNCATED, STATUS 0x22; HDR stays 0. -/
theorem test_parse_truncated :
    nextIs (exec .parse { withIn base [0x42, 0x4C, 0x50, 0x32] with inLen := 104 })
      (fun t => nextIs (exec .endRun t) (fun u => regRead u 4 == 0x22#32) && t.hdr == base.hdr) = true := by decide

/-! ### SETUP (L2-ORC) -/

/-- L2-ORC-1: 8 × 8 with 16 bytes is TRUNCATED, STATUS 0x102 after END. -/
theorem test_setup_payload :
    nextIs (exec .setup (setupState 1 2 0 8 8 148 16 164))
      (fun t => t.levelStatus[0] == .truncated && t.seq.step == .nextLevel
        && nextIs (exec .endRun t) (fun u => regRead u 4 == 0x00000102#32)) = true := by decide +kernel

/-- L2-ORC-13: 2 × 2 with alphaType 8 is IRREGULAR_DIMENSIONS, the first check. -/
theorem test_setup_order :
    nextIs (exec .setup (setupState 1 2 8 2 2 148 8 156)) (fun t => t.levelStatus[0] == .irregularDimensions) = true := by
  decide +kernel

/-! ### The decoders -/

/-- L2-BC1-5: c0 < c1 is 3-colour; row 0 with indices 0 to 3 lands in cells 12 to 15 of a 4 × 4 canvas. -/
theorem test_bc1_three_colour :
    nextIs (exec (.decodeBc1 0 0 0) (blockState [0x1F, 0x00, 0x00, 0xF8, 0xE4, 0xE4, 0xE4, 0xE4] 4 4))
      (fun t => cellsAt t [12, 13, 14, 15] == [some 0x00FF001F, some 0x00FFF800, some 0x00FF780F, some 0#32]
        && !t.flags.mode4) = true := by decide +kernel

/-- L2-BC1-10: the index order of the first row, p0 to p3, and p15 at cell 3. -/
theorem test_bc1_index_order :
    nextIs (exec (.decodeBc1 0 0 0) (blockState [0x00, 0xF8, 0x1F, 0x00, 0x1B, 0x00, 0x00, 0x00] 4 4))
      (fun t => cellsAt t [12, 13, 14, 15, 3]
        == [some 0x00FF5014#32, some 0x00FFA00A, some 0x00FF001F, some 0x00FFF800, some 0x00FFF800]) = true := by
  decide +kernel

/-- L2-BC2-4: p0 to p3 at cells 12 to 15, p12 to p15 at cells 0 to 3. -/
theorem test_bc2_nibbles :
    nextIs (exec (.decodeBc2 0 0 0) (blockState
        [0xEF, 0xCD, 0xAB, 0x89, 0x67, 0x45, 0x23, 0x01, 0xFF, 0xFF, 0x00, 0x00, 0xE4, 0xE4, 0xE4, 0xE4] 4 4))
      (fun t => cellsAt t [12, 13, 14, 15] == [some 0x00FFFFFF, some 0x00EE0000, some 0x00DDA554, some 0x00CC52AA#32]
        && cellsAt t [0, 1, 2, 3] == [some 0x0033FFFF, some 0x00220000, some 0x0011A554, some 0x000052AA#32]) = true := by
  decide +kernel

/-- L2-BC3-10: the 7-step ramp and all eight indices over p0 to p7. -/
theorem test_bc3_seven_step :
    nextIs (exec (.decodeBc3 0 0 0) (blockState
        [0xFF, 0x00, 0x88, 0xC6, 0xFA, 0x88, 0xC6, 0xFA, 0x00, 0xF8, 0x1F, 0x00, 0x00, 0x00, 0x00, 0x00] 4 4))
      (fun t => cellsAt t [12, 13, 14, 15] == [some 0x00FFF800, some 0x0000F800, some 0x00DAF800, some 0x00B6F800#32]
        && cellsAt t [8, 9, 10, 11] == [some 0x0091F800, some 0x006DF800, some 0x0048F800, some 0x0024F800#32]) = true := by
  decide +kernel

/-- L2-BC3-4 and L1-2: the 5-step ramp for 100, 200 and for equal endpoints. -/
theorem test_bc3_five_step :
    alphaRamp 100 200 = #v[100, 200, 120, 140, 160, 180, 0, 255]
      ∧ alphaRamp 128 128 = #v[128, 128, 128, 128, 128, 128, 0, 255] := by decide

/-- R319's worked example: block 1 of an 8 × 4 BC2 level is at SLICE_BASE + 16 with origin (4, 0). -/
theorem test_decode_second_block :
    (fun l => (blockAddr l 1, blockX l 1, blockY l 1)) (⟨8, 4, .bc2, 16, 2, 1, 148, 32⟩ : Lvl) = (164, 4, 0) := by decide

/-! ### The canvas writer -/

/-- L2-CAN-3 and R292: with 8 × 4, (5, 1) is cell 21. -/
theorem test_canvas_cell :
    nextIs (exec (.canvasWrite 5 1 0x00AA0000) (blockState [] 8 4))
      (fun t => t.canvasCell 21 == some 0x00AA0000#32 && t.canvasCell 20 == none) = true := by decide

/-- L2-CAN-6: (4, 0) on 4 × 4 is FAULT_CANVAS_BOUNDS. -/
theorem test_canvas_bounds :
    nextIs (exec (.canvasWrite 4 0 0) (blockState [] 4 4)) (fun t => t.fault == some .canvasBounds) = true := by decide

/-- R293: at origin (2, 0) of a 4 × 4 canvas pixel 2 is the first outside; pixels 0 and 1, cells 14 and 15, are the red
and blue of L2-BC1-10's colours, and nothing else is written. -/
theorem test_block_leaves_canvas :
    nextIs (exec (.decodeBc1 0 2 0) (blockState [0x00, 0xF8, 0x1F, 0x00, 0x04, 0x00, 0x00, 0x00] 4 4))
      (fun t => t.fault == some .canvasBounds && t.seq.pix == 2
        && cellsAt t [14, 15] == [some 0x00FFF800, some 0x00FF001F#32] && cellsAt t [8, 12, 10] == [none, none, none])
      = true := by decide +kernel

/-! ### EMIT, NEXT, END -/

/-- L2-BMP-1: the first 48 header bytes for 4 × 4. -/
theorem test_bmp_header :
    (fileHeader 4 4 ++ dibHeader params0 4 4).take 48
      = [0x42, 0x4D, 0xBA, 0, 0, 0, 0, 0, 0, 0, 0x7A, 0, 0, 0, 0x6C, 0, 0, 0, 4, 0, 0, 0, 4, 0, 0, 0, 1, 0, 0x20, 0, 3, 0,
        0, 0, 0x40, 0, 0, 0, 0, 0, 0, 0, 0, 0, 0, 0, 0, 0] := by decide

/-- L1-8: the masks are bytes 54 to 69, and 122 bytes are header. -/
theorem test_bmp_masks :
    ((fileHeader 4 4 ++ dibHeader params0 4 4).drop 54).take 16
      = [0x00, 0xF8, 0, 0, 0xE0, 0x07, 0, 0, 0x1F, 0, 0, 0, 0, 0, 0xFF, 0]
      ∧ (fileHeader 4 4 ++ dibHeader params0 4 4).length = 122 := by decide

/-- L2-ORC-11: the host answers fail; IO_ERROR and OUT empty. -/
theorem test_emit_fail :
    nextIs (exec .emit { base with answers := [.fail], seq := ⟨.emit, 0, 0, 0⟩ })
      (fun t => t.levelStatus[0] == .ioError && t.out == [] && t.seq.step == .nextLevel) = true := by decide

/-- P3: with RUN_ALL, NEXT after level 0 goes to SETUP at level 1. -/
theorem test_next_all :
    nextIs (exec .nextLevel { base with runAll := true, seq := ⟨.nextLevel, 0, 0, 0⟩ })
      (fun t => t.seq.step == .setup && t.seq.level == 1) = true := by decide

/-- P1: STATUS is 0x00010102 after END. -/
theorem test_end_status :
    nextIs (exec .endRun { base with
        status := { base.status with busy := true, levelsVisited := 1, levelsEmitted := 1 } })
      (fun t => regRead t 4 == 0x00010102#32) = true := by decide

/-! ### Every table row runs as the first instruction after reset -/

theorem test_rows_run :
    [(32, 0), (32, 1), (8, 1), (8, 2), (8, 3), (48, 0x10200), (48, 0x10201), (48, 0x10207), (8, 7), (8, 4), (8, 5),
      (8, 6)].all (fun r => nextIs (step (State.reset.withFetchWord r.1 r.2)) fun _ => true) = true := by decide

/-! ### Witnesses: for each statement with hypotheses, a concrete state and operands that meet them together -/

/-- `base` with one action on the host's script. -/
def hostDoes (e : HostEvent) : State := { base with host := [e] }

/-- A running machine with one action on the host's script. -/
def busyHostDoes (e : HostEvent) : State := { setupState 1 2 0 4 4 148 8 156 with host := [e] }

theorem witness_DecodeOfEncodeIsTheInstruction :
    (Instr.decodeBc3 (2 ^ 32 - 1) (2 ^ 32 - 1) (2 ^ 32 - 1)).wf = true ∧ (Instr.canvasWrite 0 (2 ^ 32 - 1) 0).wf = true := by
  decide

theorem witness_CommandWordDecodesOnOp :
    (0xFFFFFFF0#32).toNat % 16 = 0 ∧ (0xFFFFFFF1#32).toNat % 16 = 1 ∧ 2 ≤ (0x00000102#32).toNat % 16
      ∧ 2 ≤ (0x0000000F#32).toNat % 16 := by decide

theorem witness_VariantSelectorIsTheThreeRows :
    variantOf (vselOf 1 2 0) = some .bc1 ∧ variantOf (vselOf 1 2 7) = some .bc3 ∧ variantOf (vselOf 1 2 8) = none
      ∧ variantOf (vselOf 0 2 0) = none := by decide

theorem witness_StepRunsTheDecodedCommand :
    let s := hostDoes (.write 0 4 0x101)
    s.issue = none ∧ s.host = [.write 0x000 4 0x101#32]
      ∧ decode .cmd (leBytes 4 (0x101#32).toNat) = .ok (.convert true, []) := ⟨rfl, rfl, rfl⟩

theorem witness_StepRunsTheSequencerStep :
    (let s := { base with seq := ⟨.setup, 3, 0, 0⟩ };
      s.issue = none ∧ s.host = [] ∧ instrStep .setup = some s.seq.step)
      ∧ (let s := { hostDoes .pass with seq := ⟨.endRun, 3, 0, 0⟩ };
      s.issue = none ∧ s.host = [.pass] ∧ instrStep .endRun = some s.seq.step)
      ∧ base.issue = none ∧ base.host = [] ∧ base.seq.step = .idle ∧ base.fault = none := by decide

theorem witness_WithFetchWordRunsTheInstruction :
    decodeTableWord 32 0x101 = some (.convert true) ∧ decodeTableWord 3 2 = some .setup
      ∧ decodeTableWord 48 0x10201 = some (.decodeBc2 0 0 0) ∧ decodeTableWord 8 7 = some (.canvasWrite 0 0 0) := by
  decide

theorem witness_NopHasNoEffect :
    (hostDoes (.write 0 4 0x100)).issue = none ∧ (hostDoes (.write 0 4 0x100)).host = [.write 0x000 4 0x100#32]
      ∧ (0x100#32).toNat % 16 = 0 := by decide

theorem witness_ConvertStartsARun :
    let s := withIn base [0x42, 0x4C]
    s.fault = none ∧ s.status.busy = false ∧ s.params.legal = true ∧ inDuty s = true := by decide

theorem witness_ConvertIgnoredStoppedOrRefused :
    ({ base with fault := some .unwritten } : State).fault = some .unwritten
      ∧ (setupState 1 2 0 4 4 148 8 156).fault = none ∧ (setupState 1 2 0 4 4 148 8 156).status.busy = true
      ∧ (let s := { base with params := { params0 with bmpXppm := 2 ^ 31 } };
        s.fault = none ∧ s.status.busy = false ∧ s.params.legal = false)
      ∧ (let s := { withIn base [0x42, 0x4C] with inLen := 3 };
        s.fault = none ∧ s.status.busy = false ∧ s.params.legal = true ∧ inDuty s = false) := by decide

theorem witness_ReservedOpSetsBadCmdOnly :
    (hostDoes (.write 0 4 2)).issue = none ∧ (hostDoes (.write 0 4 2)).host = [.write 0x000 4 2#32]
      ∧ 2 ≤ (2#32).toNat % 16 ∧ (hostDoes (.write 0 4 2)).status.busy = false
      ∧ (busyHostDoes (.write 0 4 15)).host = [.write 0x000 4 15#32] ∧ 2 ≤ (15#32).toNat % 16
      ∧ (busyHostDoes (.write 0 4 15)).status.busy = true := by decide

/-- A file of exactly 148 bytes, the least that parses (R183). -/
def file148 : State := withIn base (headerBytes 1 2 0 4 4 148 8)

theorem witness_ParseLatchesTheHeader :
    file148.fault = none ∧ 148 ≤ file148.inLen.toNat ∧ inRead file148 0 4 = some 0x32504C42
      ∧ inReadBytes file148 0 148 = some (headerBytes 1 2 0 4 4 148 8) := by decide +kernel

theorem witness_ParseRejectsABadHeader :
    (withIn base [0x42, 0x4C, 0x50]).fault = none ∧ (withIn base [0x42, 0x4C, 0x50]).inLen.toNat < 4
      ∧ inRead (withIn base [0x42, 0x4C, 0x50, 0x31]) 0 4 = some 0x31504C42
      ∧ (let s := { withIn base [0x42, 0x4C, 0x50, 0x32] with inLen := 147 };
        s.fault = none ∧ inRead s 0 4 = some 0x32504C42 ∧ s.inLen.toNat < 148) := by decide

theorem witness_ParsedFieldsAreTheBytesOfIn :
    exec .parse file148 = .next file148.parseStep ∧ file148.parseStep.seq.step = .setup
      ∧ file148.parseStep.fault = none := ⟨rfl, by decide +kernel, by decide +kernel⟩

theorem witness_OnlyParseRaisesAFatalError :
    exec .parse base = .next base.parseStep ∧ base.parseStep.status.fatal ≠ base.status.fatal := ⟨rfl, by decide⟩

/-- One BC1 block with c0 > c1 (L2-BC1-1), at address 0, on a 4 × 4 canvas. -/
def bc1Four : State := blockState [0x00, 0xF8, 0x1F, 0x00, 0xE4, 0xE4, 0xE4, 0xE4] 4 4

/-- One BC1 block with c0 = c1 (L2-BC1-8). -/
def bc1Equal : State := blockState [0x34, 0x12, 0x34, 0x12, 0xE4, 0xE4, 0xE4, 0xE4] 4 4

theorem witness_DecodeBc1ResolvesItsBlock :
    tileFits bc1Four (blankCanvas 4 4) 0 0 ∧ inRead bc1Four 0 2 = some 0xF800 ∧ inRead bc1Four 2 2 = some 0x001F
      ∧ inRead bc1Four 4 4 = some 0xE4E4E4E4 ∧ 0xF800 > 0x001F ∧ ci 0xE4E4E4E4 15 = 3 :=
  ⟨⟨rfl, rfl, by decide, by decide⟩, by decide, by decide, by decide, by decide, by decide⟩

theorem witness_Bc1EqualEndpointsAreThreeColour :
    tileFits bc1Equal (blankCanvas 4 4) 0 0 ∧ inRead bc1Equal 0 2 = some 0x1234 ∧ inRead bc1Equal 2 2 = some 0x1234
      ∧ inRead bc1Equal 4 4 = some 0xE4E4E4E4 ∧ exec (.decodeBc1 0 0 0) bc1Equal = .next (bc1Block 0 0 0 bc1Equal)
      ∧ ci 0xE4E4E4E4 0 ≠ 3 ∧ ci 0xE4E4E4E4 3 = 3 :=
  ⟨⟨rfl, rfl, by decide, by decide⟩, by decide, by decide, by decide, rfl, by decide, by decide⟩

/-- The block of L2-BC3-10, a0 = 255 and a1 = 0, on a canvas whose tile (1, 1) touches the far edges. -/
def bc3Seven : State := blockState
  [0xFF, 0x00, 0x88, 0xC6, 0xFA, 0x88, 0xC6, 0xFA, 0x00, 0xF8, 0x1F, 0x00, 0x00, 0x00, 0x00, 0x00] 5 5

/-- The block of L2-BC3-12, a0 = a1 = 128. -/
def bc3Equal : State := blockState
  [0x80, 0x80, 0x00, 0x00, 0x00, 0x00, 0x00, 0x00, 0x00, 0xF8, 0x1F, 0x00, 0x00, 0x00, 0x00, 0x00] 4 4

theorem witness_DecodeBc2ResolvesItsBlock :
    tileFits bc3Seven (blankCanvas 5 5) 1 1 ∧ inRead bc3Seven 0 8 = some 0xFAC688FAC68800FF
      ∧ inRead bc3Seven 8 2 = some 0xF800 ∧ inRead bc3Seven 10 2 = some 0x001F ∧ inRead bc3Seven 12 4 = some 0 :=
  ⟨⟨rfl, rfl, by decide, by decide⟩, by decide, by decide, by decide, by decide⟩

theorem witness_DecodeBc3ResolvesItsBlock :
    tileFits bc3Seven (blankCanvas 5 5) 1 1 ∧ inRead bc3Seven 0 8 = some 0xFAC688FAC68800FF
      ∧ inRead bc3Seven 8 2 = some 0xF800 ∧ inRead bc3Seven 10 2 = some 0x001F ∧ inRead bc3Seven 12 4 = some 0
      ∧ 0xFAC688FAC68800FF % 256 > 0xFAC688FAC68800FF / 256 % 256 ∧ ai 0xFAC688FAC68800FF 15 = 7 :=
  ⟨⟨rfl, rfl, by decide, by decide⟩, by decide, by decide, by decide, by decide, by decide, by decide⟩

theorem witness_Bc3EqualAlphasTakeFiveSteps :
    tileFits bc3Equal (blankCanvas 4 4) 0 0 ∧ inRead bc3Equal 0 8 = some 0x8080 ∧ inRead bc3Equal 8 2 = some 0xF800
      ∧ inRead bc3Equal 10 2 = some 0x001F ∧ inRead bc3Equal 12 4 = some 0 ∧ 0x8080 % 256 = 0x8080 / 256 % 256
      ∧ exec (.decodeBc3 0 0 0) bc3Equal = .next (bc3Block 0 0 0 bc3Equal) :=
  ⟨⟨rfl, rfl, by decide, by decide⟩, by decide, by decide, by decide, by decide, by decide, rfl⟩

/-- The block of `bc3Equal` one byte further on, in a machine with other registers. -/
def bc3Moved : State :=
  { blockState [0xAA, 0x80, 0x80, 0x00, 0x00, 0x00, 0x00, 0x00, 0x00, 0x00, 0xF8, 0x1F, 0x00, 0x00, 0x00, 0x00, 0x00] 4 4 with
    flags := ⟨true, true⟩ }

theorem witness_DecoderResultDependsOnBlockBytesOnly :
    bc3Equal.params.bc1T3Rgb = bc3Moved.params.bc1T3Rgb ∧ bc3Equal.canvas = bc3Moved.canvas
      ∧ inReadBytes bc3Equal 0 (blockSize .bc3) = inReadBytes bc3Moved 1 (blockSize .bc3)
      ∧ (inReadBytes bc3Equal 0 (blockSize .bc3)).isSome = true
      ∧ exec (decoderInstr .bc3 0 0 0) bc3Equal = .next (bc3Block 0 0 0 bc3Equal)
      ∧ exec (decoderInstr .bc3 1 0 0) bc3Moved = .next (bc3Block 1 0 0 bc3Moved) :=
  ⟨by decide, by decide, by decide, by decide, rfl, rfl⟩

theorem witness_BlockPastInLenFaults :
    bc1Four.fault = none ∧ bc1Four.inLen.toNat < 1 + blockSize .bc1 ∧ bc3Equal.fault = none
      ∧ bc3Equal.inLen.toNat < 1 + blockSize .bc3 := by decide

theorem witness_CanvasWriteStoresOneCell :
    let s := blockState [] 8 4
    s.fault = none ∧ s.canvas = some (blankCanvas 8 4) ∧ 7 < (blankCanvas 8 4).width ∧ 3 < (blankCanvas 8 4).height := by
  decide

theorem witness_CanvasWriteOutOfRangeFaults :
    (blockState [] 8 4).fault = none ∧ (∀ c, (blockState [] 8 4).canvas = some c → c.width ≤ 8 ∨ c.height ≤ 0)
      ∧ (∀ c, (blockState [] 8 4).canvas = some c → c.width ≤ 0 ∨ c.height ≤ 4)
      ∧ ∀ c, base.canvas = some c → c.width ≤ 0 ∨ c.height ≤ 0 := by
  refine ⟨rfl, ?_, ?_, ?_⟩
  · rintro c ⟨⟩; exact .inl (by decide)
  · rintro c ⟨⟩; exact .inr (by decide)
  · rintro c ⟨⟩

theorem witness_CanvasIsFlippedVertically :
    (blockState [] 1 1).fault = none ∧ (blockState [] 1 1).canvas = some (blankCanvas 1 1) ∧ 0 < (blankCanvas 1 1).width
      ∧ 1 ≤ (blankCanvas 1 1).height := by decide

theorem witness_CanvasTranslationIsABijection :
    7 < (blankCanvas 8 4).width ∧ 0 < (blankCanvas 8 4).height
      ∧ 31 < (blankCanvas 8 4).width * (blankCanvas 8 4).height := by decide

theorem witness_SetupStopsAtTheTerminator :
    ({ base with seq := ⟨.setup, 16, 0, 0⟩ } : State).fault = none
      ∧ ({ base with seq := ⟨.setup, 16, 0, 0⟩ } : State).seq.level.val = 16
      ∧ (setupState 1 2 0 4 4 0 8 156).fault = none
      ∧ mipOffset (setupState 1 2 0 4 4 0 8 156).hdr (setupState 1 2 0 4 4 0 8 156).seq.level.val = 0 := by
  decide +kernel

/-- The hypotheses of `SetupChecksALevelWithADecoder` on a state, and the branch its values take. -/
def setupHyps (s : State) (v : Variant) : Prop :=
  s.seq.level.val < 16 ∧ s.fault = none ∧ mipOffset s.hdr s.seq.level.val ≠ 0 ∧ headerVariant s.hdr v

/-- One state per branch: width 0, 6 × 4, bounds, payload, the capacity 4096 exceeded by a 64 × 64 canvas, and a level
that passes with its payload exactly at the end of IN. -/
theorem witness_SetupChecksALevelWithADecoder :
    setupHyps (setupState 1 2 0 0 4 148 8 156) .bc1 ∧ setupHyps (setupState 1 2 1 6 4 148 16 164) .bc2
      ∧ setupHyps (setupState 1 2 0 4 4 148 9 156) .bc1 ∧ setupHyps (setupState 1 2 7 8 8 148 63 211) .bc3
      ∧ setupHyps (setupState 1 2 0 64 64 148 2048 2196) .bc1 ∧ setupHyps (setupState 1 2 0 4 4 148 8 156) .bc1 := by
  unfold setupHyps headerVariant
  decide +kernel

/-- The six states above end as their branches say. -/
theorem witness_SetupChecksALevelWithADecoder_branches :
    [setupState 1 2 0 0 4 148 8 156, setupState 1 2 1 6 4 148 16 164, setupState 1 2 0 4 4 148 9 156,
      setupState 1 2 7 8 8 148 63 211, setupState 1 2 0 64 64 148 2048 2196, setupState 1 2 0 4 4 148 8 156].map
        (fun s => s.setupStep.levelStatus[0])
      = [.irregularDimensions, .irregularDimensions, .truncated, .truncated, .allocationError, .notRun] := by
  decide +kernel

theorem witness_SetupRejectsAnUnsupportedEncoding :
    (∀ s ∈ [setupState 1 2 8 4 4 148 8 156, setupState 1 1 0 2 2 148 8 156],
      s.seq.level.val < 16 ∧ s.fault = none ∧ mipOffset s.hdr s.seq.level.val ≠ 0)
      ∧ (∀ v, ¬ headerVariant (setupState 1 2 8 4 4 148 8 156).hdr v)
      ∧ ∀ v, ¬ headerVariant (setupState 1 1 0 2 2 148 8 156).hdr v := by
  refine ⟨by decide +kernel, ?_, ?_⟩ <;> intro v <;> unfold headerVariant <;> cases v <;> decide +kernel

/-- A level of one 4 × 4 BC1 block at IN address 0, at DECODE. -/
def decoding (block : Nat) : State :=
  { bc1Four with
    status := { base.status with busy := true }
    lvl := ⟨4, 4, .bc1, 8, 1, 1, 0, 8⟩
    seq := ⟨.decode, 0, block, 0⟩ }

theorem decoding_covered (k : Nat) : inCovered (decoding k) := by
  show ∀ a, a < 8 → (lookupCell (placeBytes 0 [0x00, 0xF8, 0x1F, 0x00, 0xE4, 0xE4, 0xE4, 0xE4]) a).isSome = true
  decide

theorem decoding_ready (k : Nat) : LevelReady (decoding k) :=
  ⟨Nat.zero_lt_succ 15, ⟨blankCanvas 4 4, rfl, rfl, rfl⟩, (by decide : 1 = 4 / 4), (by decide : 1 = 4 / 4), rfl,
    Nat.le_refl 8, Nat.le_refl 8, show 122 + 4 * 4 * 4 ≤ 2 ^ 32 - 1 by decide,
    fun _ => (by decide : 4 % 4 = 0 ∧ 4 % 4 = 0)⟩

theorem decoding_inv (k : Nat) (hk : k ≤ 1) : Inv (decoding k) where
  memWf := rfl
  noFault := rfl
  noIssue := rfl
  busy := by simp [decoding]
  covered := fun _ => decoding_covered k
  pix := rfl
  canvasLife := fun _ => .inl rfl
  canvasSound := by rintro c ⟨⟩; exact ⟨rfl, by decide, by decide, by simp [blankCanvas]⟩
  decoding := fun _ => ⟨decoding_ready k, hk⟩
  emitting := by intro h; cases h
  levelDone := by intro h; cases h

theorem decoding_accounting (k : Nat) : Accounting (decoding k) where
  visited := rfl
  emitted := rfl
  images := rfl
  increasing := List.Pairwise.nil
  imageOk := by intro img h; cases h
  notStarted := by intro h; cases h
  ahead := fun _ i _ => show (Vector.replicate 16 LevelCode.notRun)[i] = .notRun by simp
  done := by intro h; cases h
  oneLevel := fun _ _ => rfl

theorem decoding_coverage : Coverage (decoding 0) where
  decoding := by intro _ j hj; exact absurd hj (Nat.not_lt_zero j)
  emitting := by intro h; cases h
  margins := by rintro _ c x y ⟨⟩ _ _ _; rfl

theorem witness_DecodeGoesToEmitWhenDone :
    (decoding 1).fault = none ∧ (decoding 1).seq.block = (decoding 1).lvl.nbx * (decoding 1).lvl.nby := by decide

theorem witness_DecodeRunsTheVariantsDecoder :
    (decoding 0).seq.block ≠ (decoding 0).lvl.nbx * (decoding 0).lvl.nby
      ∧ exec (decoderInstr .bc1 0 0 0) (decoding 0) = .next (bc1Block 0 0 0 (decoding 0))
      ∧ (bc1Block 0 0 0 (decoding 0)).fault = none := ⟨by decide, rfl, by decide +kernel⟩

theorem witness_DecodeOfACheckedLevelNeverFaults :
    (decoding 0).fault = none ∧ LevelReady (decoding 0) ∧ inCovered (decoding 0)
      ∧ (decoding 0).seq.block < (decoding 0).lvl.nbx * (decoding 0).lvl.nby :=
  ⟨rfl, decoding_ready 0, decoding_covered 0, by decide⟩

theorem witness_NextGoesOnOrEnds :
    base.fault = none ∧ base.runAll = false
      ∧ (let s := { base with runAll := true, seq := ⟨.nextLevel, 15, 0, 0⟩ };
        s.fault = none ∧ s.runAll = true ∧ s.seq.level.val < 16) := by decide

theorem witness_EndSetsDone : base.fault = none := by decide

theorem witness_EmitAcceptedQueuesTheImage :
    let s := { decoding 1 with answers := [.ok] }
    s.seq.level.val < 16 ∧ s.fault = none ∧ s.answers = [EmitAnswer.ok] := by decide

theorem witness_EmitFailedIsAnIoError :
    let s := { decoding 1 with answers := [.fail] }
    s.seq.level.val < 16 ∧ s.fault = none ∧ s.answers = [EmitAnswer.fail] := by decide

theorem witness_EmitCompletesForEveryAnswer : (decoding 1).fault = none := by decide

/-- The largest size R318 lets through at width 1, and the least. -/
theorem witness_BmpHeaderFieldsAreAtTheirOffsets :
    (∀ l ∈ [(1, 1), (1, 1073741793)], 122 + 4 * l.1 * l.2 < 2 ^ 32 ∧ 1 ≤ l.1 ∧ 1 ≤ l.2)
      ∧ base.params.legal = true ∧ ({ params0 with bmpXppm := -2 ^ 31, bmpYppm := 2 ^ 31 - 1 } : Params).legal = true := by
  decide

/-- One written cell and one UNWRITTEN cell of a 2 × 1 canvas. -/
theorem witness_BmpPixelsAreTheCanvasInStorageOrder :
    let s := { base with lvl := { base.lvl with curW := 2, curH := 1 }, canvas := some ⟨2, 1, [(0, 7#32)]⟩ }
    0 < s.lvl.curW * s.lvl.curH ∧ 1 < s.lvl.curW * s.lvl.curH ∧ s.canvasCell 0 = some 7 ∧ s.canvasCell 1 = none := by
  decide

/-- The block of L1-1 on a 4 × 4 level. -/
def redBlock : State :=
  { blockState [0x00, 0xF8, 0x1F, 0x00, 0x00, 0x00, 0x00, 0x00] 4 4 with lvl := ⟨4, 4, .bc1, 8, 1, 1, 0, 8⟩ }

theorem witness_RedBlockGivesSixteenRedPixels :
    redBlock.canvas = some (blankCanvas 4 4) ∧ redBlock.lvl.curW = 4 ∧ redBlock.lvl.curH = 4
      ∧ inRead redBlock 0 2 = some 0xF800 ∧ inRead redBlock 2 2 = some 0x001F ∧ inRead redBlock 4 4 = some 0
      ∧ exec (.decodeBc1 0 0 0) redBlock = .next (bc1Block 0 0 0 redBlock) :=
  ⟨rfl, rfl, rfl, by decide, by decide, by decide, rfl⟩

theorem witness_HostReadHasNoSideEffect :
    (hostDoes (.read 0x2FC 4)).issue = none ∧ (hostDoes (.read 0x2FC 4)).host = [.read 0x2FC 4] ∧ 0x2FC % 4 = 0
      ∧ 0x2FC < 0x300 ∧ (hostDoes (.read 0x300 4)).host = [.read 0x300 4] ∧ (hostDoes (.read 2 4)).host = [.read 2 4]
      ∧ (hostDoes (.read 4 2)).host = [.read 4 2] := by decide

theorem witness_HostWritesReachInLenOnly :
    (hostDoes (.write 0x2FC 4 9)).issue = none ∧ (hostDoes (.write 0x2FC 4 9)).host = [.write 0x2FC 4 9#32]
      ∧ (hostDoes (.write 0x300 4 9)).host = [.write 0x300 4 9#32]
      ∧ (busyHostDoes (.write 8 4 9)).issue = none ∧ (busyHostDoes (.write 8 4 9)).host = [.write 8 4 9#32]
      ∧ (busyHostDoes (.write 8 4 9)).status.busy = true
      ∧ (let s := { hostDoes (.write 8 4 9) with params := { params0 with maxInLen := 9 } };
        s.status.busy = false ∧ (9#32).toNat ≤ s.params.maxInLen)
      ∧ (let s := { hostDoes (.write 8 4 9) with params := { params0 with maxInLen := 8 } };
        s.status.busy = false ∧ s.params.maxInLen < (9#32).toNat) := by decide

theorem witness_LoadingInIsForIdleOnly :
    (busyHostDoes (.loadIn [1])).issue = none ∧ (busyHostDoes (.loadIn [1])).host = [.loadIn [1#8]]
      ∧ (busyHostDoes (.loadIn [1])).status.busy = true
      ∧ (let s := { hostDoes (.loadIn [1, 2]) with params := { params0 with maxInLen := 2 } };
        s.issue = none ∧ s.host = [.loadIn [1#8, 2#8]] ∧ s.status.busy = false
          ∧ [1#8, 2#8].length ≤ s.params.maxInLen) := by decide

/-- Reset of a machine that runs and is faulted. -/
def faulted : State := { busyHostDoes .reset with fault := some .canvasBounds }

theorem witness_HostResetFromAnyState : faulted.issue = none ∧ faulted.host = [.reset] := by decide

theorem witness_OnlyResetClearsAFault :
    faulted.fault = some .canvasBounds ∧ step faulted = .next (hostReset { faulted with host := [] })
      ∧ (let s := { faulted with host := [.read 4 4] };
        nextIs (step s) (fun t => t.fault == some .canvasBounds) = true) := ⟨rfl, rfl, by decide⟩

theorem witness_EngineNeverWritesIn : exec .parse file148 = .next file148.parseStep := by rfl

/-- A tile one column, one row, or wholly outside a 4 × 4 canvas, and a machine without a canvas. -/
theorem witness_TileOutsideTheCanvasFaults :
    bc1Four.fault = none ∧ (inReadBytes bc1Four 0 (blockSize .bc1)).isSome = true
      ∧ bc1Four.canvas = some (blankCanvas 4 4) ∧ (blankCanvas 4 4).width ≤ 1 + 3 ∧ (blankCanvas 4 4).height ≤ 1 + 3
      ∧ (blankCanvas 4 4).width ≤ 4 + 3 ∧ (inReadBytes bc3Equal 0 (blockSize .bc3)).isSome = true
      ∧ (withIn base [0x00, 0xF8, 0x1F, 0x00, 0, 0, 0, 0]).canvas = none
      ∧ (inReadBytes (withIn base [0x00, 0xF8, 0x1F, 0x00, 0, 0, 0, 0]) 0 (blockSize .bc1)).isSome = true := by decide

theorem witness_WhoWritesHdrOutRunAllAndCanvas :
    exec .setup (setupState 1 2 0 4 4 148 8 156) = .next (setupState 1 2 0 4 4 148 8 156).setupStep
      ∧ (setupState 1 2 0 4 4 148 8 156).setupStep.canvas = some ⟨4, 4, []⟩ := ⟨rfl, by decide +kernel⟩

theorem witness_StepKeepsTheInvariant :
    Inv (decoding 0) ∧ step (decoding 0) = .next (decoding 0).decodeStep := ⟨decoding_inv 0 (by decide), rfl⟩

theorem witness_EngineAlwaysHasANextStep : Inv (decoding 1) ∧ (decoding 1).host = [] :=
  ⟨decoding_inv 1 (by decide), rfl⟩

theorem witness_StepKeepsTheAccounting :
    Inv (decoding 0) ∧ Accounting (decoding 0) ∧ step (decoding 0) = .next (decoding 0).decodeStep :=
  ⟨decoding_inv 0 (by decide), decoding_accounting 0, rfl⟩

theorem witness_StepKeepsTheCoverage :
    Inv (decoding 0) ∧ Coverage (decoding 0) ∧ step (decoding 0) = .next (decoding 0).decodeStep :=
  ⟨decoding_inv 0 (by decide), decoding_coverage, rfl⟩

/-- A level of one block, all 16 cells written, at EMIT. -/
def emitting : State :=
  { decoding 1 with
    seq := ⟨.emit, 0, 1, 0⟩
    canvas := some ⟨4, 4, (List.range 16).map fun i => (i, 0x00FFF800#32)⟩ }

theorem emitting_inv : Inv emitting where
  memWf := by decide
  noFault := rfl
  noIssue := rfl
  busy := by simp [emitting, decoding]
  covered := fun _ => decoding_covered 1
  pix := rfl
  canvasLife := fun _ => .inr (.inl rfl)
  canvasSound := by rintro c ⟨⟩; exact ⟨by decide, by decide, by decide, by decide⟩
  decoding := by intro h; cases h
  emitting := fun _ =>
    ⟨by decide, ⟨_, rfl, rfl, rfl⟩, by decide, by decide, rfl, by decide, by decide, by decide, fun _ => by decide⟩
  levelDone := by intro h; cases h

theorem emitting_coverage : Coverage emitting where
  decoding := by intro h; cases h
  emitting := by
    rintro _ j hj p c ⟨⟩
    have h0 : j = 0 := by
      have : j < 1 := hj
      omega
    subst h0
    revert p
    decide
  margins := by
    rintro _ c x y ⟨⟩ hx hy h
    simp only [emitting, decoding] at hx hy h
    omega

theorem witness_NoUnwrittenCellAtEmitUnderFail :
    Inv emitting ∧ Coverage emitting ∧ emitting.seq.step = .emit ∧ emitting.params.dimPolicy = .fail :=
  ⟨emitting_inv, emitting_coverage, rfl, rfl⟩

/-- A run at SETUP, with an IN of no bytes, so that the level it may meet is TRUNCATED. -/
def atSetup : State := { base with status := { base.status with busy := true }, seq := ⟨.setup, 0, 0, 0⟩ }

theorem atSetup_inv : Inv atSetup where
  memWf := by decide
  noFault := rfl
  noIssue := rfl
  busy := by simp [atSetup]
  covered := fun _ a h => absurd h (by simp [atSetup, base, State.reset])
  pix := rfl
  canvasLife := fun h => absurd rfl h
  canvasSound := by rintro c ⟨⟩
  decoding := by intro h; cases h
  emitting := by intro h; cases h
  levelDone := by intro h; cases h

theorem witness_RunEndsWithinTheStepBound : Inv atSetup ∧ atSetup.host = [] ∧ atSetup.seq.step = .setup :=
  ⟨atSetup_inv, rfl, rfl⟩

theorem witness_EveryRunEnds : Inv (decoding 0) ∧ (decoding 0).host = [] ∧ (decoding 0).seq.step ≠ .idle :=
  ⟨decoding_inv 0 (by decide), rfl, by decide⟩

theorem witness_RegisterMapReads :
    (0x010 < 0x014 ∧ (0x014 < 0x100 ∨ 0x190 < 0x014) ∧ (0x014 < 0x200 ∨ 0x240 ≤ 0x014))
      ∧ (0x010 < 0x194 ∧ (0x194 < 0x100 ∨ 0x190 < 0x194) ∧ (0x194 < 0x200 ∨ 0x240 ≤ 0x194))
      ∧ (0x010 < 0x240 ∧ (0x240 < 0x100 ∨ 0x190 < 0x240) ∧ (0x240 < 0x200 ∨ 0x240 ≤ 0x240)) := by decide

end Sys2Proof.Tests
end

section
/-! PROOFS. The header parser (40_header_parser.md R180 to R184): what PARSE does in each of its cases, the latch read as
numbers, and which instructions leave STATUS.FATAL alone. -/

namespace Sys2Proof.Machine

/-! ### Reading a part of a range of IN -/

/-- A list whose bytes are those of IN from `a` on is what a read of its length gives. -/
theorem memBytes_eq_some_of_lookupCell {m : Memory} (bs : List Byte) (a : Nat)
    (h : ∀ j < bs.length, lookupCell m (a + j) = bs[j]?) : memBytes m bs.length a = some bs := by
  induction bs generalizing a with
  | nil => rfl
  | cons b bs ih =>
    have hb : lookupCell m a = some b := h 0 (Nat.zero_lt_succ _)
    have hbs : memBytes m bs.length (a + 1) = some bs := ih (a + 1) fun j hj => by
      rw [Nat.add_right_comm, Nat.add_assoc]
      exact h (j + 1) (Nat.succ_lt_succ hj)
    simp [memBytes, hb, hbs]

/-- A part of a range of IN that was read is read as the same bytes. -/
theorem memBytes_part {m : Memory} {a n o k : Nat} {bs : List Byte} (h : memBytes m n a = some bs) (hk : o + k ≤ n) :
    memBytes m k (a + o) = some ((List.range k).map fun j => bs.getD (o + j) 0) := by
  have hlen := length_memBytes m n a bs h
  have hpart := memBytes_eq_some_of_lookupCell (m := m) ((List.range k).map fun j => bs.getD (o + j) 0) (a + o)
    fun j hj => by
      have hj : j < k := by simpa using hj
      have hin : o + j < bs.length := by omega
      rw [Nat.add_assoc, ← getElem?_memBytes m n a (o + j) bs h (by omega)]
      simp [hj, hin]
  simpa using hpart

/-! ### The latch -/

/-- Byte `k` of the latch is byte `k` of the bytes latched (R183). -/
theorem getElem_hdrOfBytes (bs : List Byte) (k : Nat) (hk : k < 148) : (hdrOfBytes bs)[k] = bs.getD k 0 := by
  simp [hdrOfBytes]

theorem hdrByte_hdrOfBytes (bs : List Byte) {k : Nat} (hk : k < 148) : hdrByte (hdrOfBytes bs) k = bs.getD k 0 := by
  simp only [hdrByte, hk, dif_pos, getElem_hdrOfBytes]

/-- A field of the latch is the number InRead gives at its offset (R85, R181). -/
theorem inRead_eq_hdrField {s : State} {bs : List Byte} (h : inReadBytes s 0 148 = some bs) {o n : Nat}
    (hn : o + n ≤ 148) : inRead s o n = some (hdrField (hdrOfBytes bs) o n) := by
  obtain ⟨hlen, hbs⟩ := inReadBytes_eq_some.1 h
  have hpart : memBytes s.inMem n o = some ((List.range n).map fun j => bs.getD (o + j) 0) := by
    simpa using memBytes_part hbs hn
  have hfield : ((List.range n).map fun j => bs.getD (o + j) 0)
      = (List.range n).map fun j => hdrByte (hdrOfBytes bs) (o + j) :=
    List.map_congr_left fun j hj => (hdrByte_hdrOfBytes bs (by have := List.mem_range.1 hj; omega)).symm
  rw [inRead, inReadBytes_eq_some.2 ⟨by omega, hpart⟩, hfield]
  rfl

/-- A field of one byte is that byte of the latch. -/
theorem hdrField_one (h : Vector Byte 148) (o : Nat) : hdrField h o 1 = (hdrByte h o).toNat := by
  simp [hdrField, leNat]

/-! ### The cases of PARSE -/

/-- An operation of the engine that always completes answers its next state exactly where there is no fault (R53). -/
theorem whenLive_next_iff {s t : State} {f : State → State} :
    whenLive s (fun s => .next (f s)) = .next t ↔ s.fault = none ∧ f s = t :=
  whenLive_eq_next.trans (by simp)

/-- PARSE completes in a machine without a fault, and only there (R53, R183). -/
theorem exec_parse_eq_next {s t : State} : exec .parse s = .next t ↔ s.fault = none ∧ s.parseStep = t :=
  whenLive_next_iff

/-- InRead answers a value only where the whole read lies below IN_LEN (R15). -/
theorem le_inLen_of_inRead {s : State} {a n v : Nat} (h : inRead s a n = some v) : a + n ≤ s.inLen.toNat := by
  obtain ⟨bs, hbs, -⟩ := Option.map_eq_some_iff.1 h
  exact (inReadBytes_eq_some.1 hbs).1

/-- Fewer than four bytes hold no magic (R183). -/
theorem parseStep_short {s : State} (h : s.inLen.toNat < 4) : s.parseStep = s.fatalError .badMagic := by
  simp [State.parseStep, h]

theorem parseStep_otherMagic {s : State} {m : Nat} (hm : inRead s 0 4 = some m) (hne : m ≠ blp2Magic) :
    s.parseStep = s.fatalError .badMagic := by
  have := le_inLen_of_inRead hm
  simp [State.parseStep, hm, hne, show ¬ s.inLen.toNat < 4 by omega]

theorem parseStep_magic {s : State} (hm : inRead s 0 4 = some blp2Magic) : s.parseStep = s.parseHeader := by
  have := le_inLen_of_inRead hm
  simp [State.parseStep, hm, show ¬ s.inLen.toNat < 4 by omega]

theorem parseHeader_truncated {s : State} (h : s.inLen.toNat < 148) :
    s.parseHeader = s.fatalError .headerTruncated := by
  simp [State.parseHeader, h]

theorem parseHeader_latch {s : State} {bs : List Byte} (h : inReadBytes s 0 148 = some bs) :
    s.parseHeader = s.latchHeader bs := by
  have := (inReadBytes_eq_some.1 h).1
  simp [State.parseHeader, h, show ¬ s.inLen.toNat < 148 by omega]

/-- PARSE latches the header, or raises a fatal error, or finds a byte of IN missing. -/
theorem parseStep_cases (s : State) :
    (∃ bs, inRead s 0 4 = some blp2Magic ∧ inReadBytes s 0 148 = some bs ∧ s.parseStep = s.latchHeader bs)
      ∨ (∃ c, s.parseStep = s.fatalError c) ∨ s.parseStep = s.raise .inBounds := by
  by_cases hshort : s.inLen.toNat < 4
  · exact .inr (.inl ⟨_, parseStep_short hshort⟩)
  cases hm : inRead s 0 4 with
  | none => exact .inr (.inr (by simp [State.parseStep, hshort, hm]))
  | some m =>
    by_cases hne : m = blp2Magic
    · subst hne
      rw [parseStep_magic hm]
      by_cases htrunc : s.inLen.toNat < 148
      · exact .inr (.inl ⟨_, parseHeader_truncated htrunc⟩)
      cases hbs : inReadBytes s 0 148 with
      | none => exact .inr (.inr (by simp [State.parseHeader, htrunc, hbs]))
      | some bs => exact .inl ⟨bs, rfl, rfl, parseHeader_latch hbs⟩
    · exact .inr (.inl ⟨_, parseStep_otherMagic hm hne⟩)

/-- A PARSE that goes to SETUP without a fault has latched the 148 bytes of IN under the right magic. -/
theorem latched_of_exec_parse {s t : State} (h : exec .parse s = .next t) (hstep : t.seq.step = .setup)
    (hfault : t.fault = none) :
    ∃ bs, inRead s 0 4 = some blp2Magic ∧ inReadBytes s 0 148 = some bs ∧ t.hdr = hdrOfBytes bs := by
  obtain ⟨-, rfl⟩ := exec_parse_eq_next.1 h
  rcases parseStep_cases s with ⟨bs, hm, hbs, ht⟩ | ⟨c, ht⟩ | ht
  · exact ⟨bs, hm, hbs, by rw [ht]; rfl⟩
  · rw [ht] at hstep
    cases hstep
  · rw [ht] at hfault
    cases hfault

/-! ### The instructions that leave STATUS.FATAL alone -/

theorem decoderFrame_status {s t : State} (h : decoderFrame s t) : t.status = s.status := by
  rw [h]

theorem setupStep_fatal (s : State) : s.setupStep.status.fatal = s.status.fatal := by
  unfold State.setupStep State.checkLevel
  split
  · rfl
  · split
    · simp
    · rfl

theorem decodeStep_fatal (s : State) : s.decodeStep.status.fatal = s.status.fatal := by
  have hblock := decoderFrame_status (decodeBlock_frame s.lvl.variant (blockAddr s.lvl s.seq.block)
    (blockX s.lvl s.seq.block) (blockY s.lvl s.seq.block) s)
  unfold State.decodeStep
  split
  · rfl
  · unfold State.andThen
    split
    · rw [hblock]
    · exact congrArg Status.fatal hblock

theorem emitStep_fatal (s : State) : s.emitStep.status.fatal = s.status.fatal := by
  unfold State.emitStep
  split
  · simp [State.acceptImage, State.useAnswer]
  · simp [State.useAnswer]

theorem nextLevelStep_fatal (s : State) : s.nextLevelStep.status.fatal = s.status.fatal := by
  unfold State.nextLevelStep
  split <;> rfl

/-- An accepted CONVERT clears STATUS.FATAL; an ignored one changes nothing (R310). -/
theorem exec_convert_fatal {all : Bool} {s t : State} (h : exec (.convert all) s = .next t) :
    t = s ∨ t.status.fatal = .none := by
  rw [exec, execConvert, whenLive_eq_next] at h
  obtain ⟨-, h⟩ := h
  split at h
  · cases h
    exact .inl rfl
  · split at h
    · cases h
    · split at h
      · cases h
      · cases h
        exact .inr rfl

/-- An operation of the engine that keeps STATUS.FATAL keeps it as an instruction. -/
theorem fatal_eq_of_whenLive {s t : State} {f : State → State} (hf : (f s).status.fatal = s.status.fatal)
    (h : whenLive s (fun s => .next (f s)) = .next t) : t.status.fatal = s.status.fatal := by
  obtain ⟨-, rfl⟩ := whenLive_next_iff.1 h
  exact hf

/-- Every instruction but PARSE and CONVERT leaves STATUS.FATAL alone (R184). -/
theorem exec_fatal {i : Instr} {s t : State} (h : exec i s = .next t) (hparse : i ≠ .parse)
    (hconvert : ∀ all, i ≠ .convert all) : t.status.fatal = s.status.fatal := by
  have hdecoder (v : Variant) (a ox oy : Nat) : (decodeBlock v a ox oy s).status.fatal = s.status.fatal :=
    congrArg Status.fatal (decoderFrame_status (decodeBlock_frame v a ox oy s))
  cases i with
  | nop =>
    cases h
    rfl
  | convert all => exact absurd rfl (hconvert all)
  | parse => exact absurd rfl hparse
  | setup => exact fatal_eq_of_whenLive (setupStep_fatal s) h
  | decode => exact fatal_eq_of_whenLive (decodeStep_fatal s) h
  | decodeBc1 a ox oy => exact fatal_eq_of_whenLive (hdecoder .bc1 a ox oy) h
  | decodeBc2 a ox oy => exact fatal_eq_of_whenLive (hdecoder .bc2 a ox oy) h
  | decodeBc3 a ox oy => exact fatal_eq_of_whenLive (hdecoder .bc3 a ox oy) h
  | canvasWrite x y v =>
    have hstore := congrArg Status.fatal (decoderFrame_status (decoderFrame_canvasStore s x y v))
    exact fatal_eq_of_whenLive (f := fun s => s.canvasStore x y v) hstore h
  | emit => exact fatal_eq_of_whenLive (emitStep_fatal s) h
  | nextLevel => exact fatal_eq_of_whenLive (nextLevelStep_fatal s) h
  | endRun => exact fatal_eq_of_whenLive (f := State.endStep) rfl h

/-! ### The obligations -/

/-- Settles O12: the right magic and 148 bytes lead PARSE to the latch, whose bytes are those of IN. -/
theorem parseLatchesTheHeader : Obligations.ParseLatchesTheHeader := by
  intro s bs hf _ hm hbs
  have hlatch : s.parseStep = s.latchHeader bs := (parseStep_magic hm).trans (parseHeader_latch hbs)
  refine ⟨s.latchHeader bs, exec_parse_eq_next.2 ⟨hf, hlatch⟩, rfl, fun k => ?_⟩
  have hlen : bs.length = 148 := length_memBytes _ _ _ _ (inReadBytes_eq_some.1 hbs).2
  have hbyte : (s.latchHeader bs).hdr[k] = bs.getD k.val 0 := getElem_hdrOfBytes bs k.val k.isLt
  simp [hbyte, hlen]

/-- Settles O13: each bad header meets its own case of PARSE, and both end in the fatal error entry. -/
theorem parseRejectsABadHeader : Obligations.ParseRejectsABadHeader := by
  intro s hf
  refine ⟨?_, fun hm htrunc => ?_⟩
  · rintro (hshort | ⟨m, hm, hne⟩)
    · exact exec_parse_eq_next.2 ⟨hf, parseStep_short hshort⟩
    · exact exec_parse_eq_next.2 ⟨hf, parseStep_otherMagic hm hne⟩
  · exact exec_parse_eq_next.2 ⟨hf, (parseStep_magic hm).trans (parseHeader_truncated htrunc)⟩

/-- Settles O14: a successful PARSE has latched the 148 bytes, and every field of the latch is the read of IN at its
offset. -/
theorem parsedFieldsAreTheBytesOfIn : Obligations.ParsedFieldsAreTheBytesOfIn := by
  intro s t h hstep hfault
  obtain ⟨bs, hm, hbs, ht⟩ := latched_of_exec_parse h hstep hfault
  have hfield {o n : Nat} (hn : o + n ≤ 148) : inRead s o n = some (hdrField t.hdr o n) := by
    rw [ht]
    exact inRead_eq_hdrField hbs hn
  have hbyte {o : Nat} (ho : o + 1 ≤ 148) : inRead s o 1 = some (hdrByte t.hdr o).toNat := by
    rw [hfield ho, hdrField_one]
  exact ⟨hm, hfield (by decide), hfield (by decide), hbyte (by decide), hbyte (by decide), hbyte (by decide),
    hbyte (by decide), hfield (by decide), hfield (by decide), fun i => ⟨hfield (by omega), hfield (by omega)⟩⟩

/-- Settles O15: CONVERT clears STATUS.FATAL or changes nothing, and no instruction but CONVERT and PARSE touches it. -/
theorem onlyParseRaisesAFatalError : Obligations.OnlyParseRaisesAFatalError := by
  intro i s t h hne
  by_cases hparse : i = .parse
  · exact .inl hparse
  by_cases hconvert : ∃ all, i = .convert all
  · refine .inr ⟨hconvert, ?_⟩
    obtain ⟨all, rfl⟩ := hconvert
    exact (exec_convert_fatal h).resolve_left fun hts => hne (by rw [hts])
  · exact absurd (exec_fatal h hparse fun all hall => hconvert ⟨all, hall⟩) hne

end Sys2Proof.Machine
end

section
/-! PROOFS. BC1 blocks (41_bc1.md R200 to R211): a pixel word as a number, the colour index of a pixel, the
three-colour ramp between equal endpoints, and the block whose endpoints are equal. -/

namespace Sys2Proof.Machine

open Sys2Proof.Claims

/-! ### Numbers read from IN, colours and pixel words -/

/-- A number of `n` bytes is below 256^n (R15, R85). -/
theorem inRead_lt {s : State} {a n v : Nat} (h : inRead s a n = some v) : v < 256 ^ n := by
  obtain ⟨bs, hbs, rfl⟩ := Option.map_eq_some_iff.1 h
  rw [← length_memBytes _ _ _ _ (inReadBytes_eq_some.1 hbs).2]
  exact leNat_lt bs

theorem unpack565_r_toNat (c : BitVec 16) : (unpack565 c).r.toNat = red c := by
  have := c.isLt
  simp only [unpack565, red, BitVec.extractLsb'_toNat, Nat.shiftRight_eq_div_pow]
  omega

theorem unpack565_g_toNat (c : BitVec 16) : (unpack565 c).g.toNat = green c := by
  simp [unpack565, green, Nat.shiftRight_eq_div_pow]

theorem unpack565_b_toNat (c : BitVec 16) : (unpack565 c).b.toNat = blue c := by
  simp [unpack565, blue]

/-- The fields of a pixel word do not overlap, so the word is their sum (R131). -/
theorem pixelWord_toNat (r : BitVec 5) (g : BitVec 6) (b : BitVec 5) (a : BitVec 8) :
    (pixelWord r g b a).toNat = a.toNat * 2 ^ 16 + r.toNat * 2 ^ 11 + g.toNat * 2 ^ 5 + b.toNat := by
  simp only [pixelWord, BitVec.toNat_append, BitVec.toNat_ofNat, Nat.zero_mod, Nat.zero_shiftLeft, Nat.zero_or]
  rw [← Nat.shiftLeft_add_eq_or_of_lt b.isLt, ← Nat.shiftLeft_add_eq_or_of_lt g.isLt,
    ← Nat.shiftLeft_add_eq_or_of_lt r.isLt]
  simp only [Nat.shiftLeft_eq]
  omega

/-- The palette entry that holds a 5:6:5 colour, with field A `a`. -/
def colourEntry (c : BitVec 16) (a : Byte) : PalEntry := ⟨(unpack565 c).r, (unpack565 c).g, (unpack565 c).b, a⟩

/-- Packing the channels of a colour again gives the colour (R131, R132). -/
theorem palPixel_colourEntry (c : BitVec 16) (e a : Byte) :
    palPixel (colourEntry c e) a = BitVec.ofNat 32 (a.toNat * 2 ^ 16 + c.toNat) := by
  have ha := a.isLt
  have hc := c.isLt
  apply BitVec.eq_of_toNat_eq
  rw [palPixel, pixelWord_toNat, BitVec.toNat_ofNat]
  simp only [colourEntry, unpack565_r_toNat, unpack565_g_toNat, unpack565_b_toNat, red, green, blue]
  omega

/-- The two bits of CSEL that select pixel `p`'s colour are digit `p` of CSEL to the base 4 (R129). -/
theorem colourIndex_toNat {n : Nat} (hn : n < 2 ^ 32) (p : Nat) :
    (colourIndex (BitVec.ofNat 32 n) p).toNat = ci n p := by
  simp only [colourIndex, sel, ci, BitVec.extractLsb'_toNat, BitVec.toNat_ofNat, Nat.mod_eq_of_lt hn,
    Nat.shiftRight_eq_div_pow, Nat.pow_mul]

theorem colourIndex_eq_three {n : Nat} (hn : n < 2 ^ 32) (p : Nat) :
    colourIndex (BitVec.ofNat 32 n) p = 3 ↔ ci n p = 3 := by
  rw [← colourIndex_toNat hn, ← BitVec.toNat_inj]
  rfl

/-! ### The three-colour ramp between equal endpoints -/

/-- Between equal endpoints every entry of the ramp is that endpoint, except that entry 3 is 0 under ZERO (R205,
R211). -/
theorem ramp3Lane_self (t : T3Rgb) (x : Nat) (k : Fin 4) :
    ramp3Lane t x x k.val = if k = 3 ∧ t = .zero then 0 else x := by
  have htwo : (x + x) / 2 = x := by omega
  have hthree : (x + 2 * x) / 3 = x := by omega
  fin_cases k
  · simp [ramp3Lane]
  · simp [ramp3Lane]
  · simp [ramp3Lane, htwo]
  · cases t <;> simp [ramp3Lane, t3Lane, htwo, hthree]

theorem getElem_rampPal (lane : Nat → Nat → Nat → Nat) (p0 p1 : Rgb) (pal : Vector PalEntry 4) (k : Fin 4) :
    (rampPal lane p0 p1 pal)[k] = rampEntry lane p0 p1 k.val pal[k] := by
  fin_cases k <;> rfl

/-- Between equal endpoints PAL[0..2] are that endpoint (R205, R211). -/
theorem getElem_ramp3_self_of_ne_three (t : T3Rgb) (c : BitVec 16) (pal : Vector PalEntry 4) {k : Fin 4}
    (hk : k ≠ 3) : (ramp3 t c c pal)[k] = colourEntry c pal[k].a := by
  rw [ramp3, getElem_rampPal]
  simp [rampEntry, ramp3Lane_self, hk, colourEntry]

/-- Between equal endpoints the transparent slot holds that endpoint, or 0 under ZERO (R205, R211). -/
theorem getElem_ramp3_self_three (t : T3Rgb) (c : BitVec 16) (pal : Vector PalEntry 4) :
    (ramp3 t c c pal)[(3 : Fin 4)] = colourEntry (if t = .zero then 0 else c) pal[(3 : Fin 4)].a := by
  rw [ramp3, getElem_rampPal]
  simp only [rampEntry, ramp3Lane_self, true_and]
  split
  · rfl
  · simp [colourEntry]

/-! ### The block with equal endpoints -/

/-- Equal endpoints select three colours: C0 > C1 does not hold (R203, R211). -/
theorem bc1Palette_self {s : State} {c : BitVec 16} (h0 : s.dp.c0 = some c) (h1 : s.dp.c1 = some c) :
    bc1Palette s = { s.setMode4 false with pal := ramp3 s.params.bc1T3Rgb c c s.pal } := by
  have hmode : bc1Mode4 c c = false := by simp [bc1Mode4]
  simp [bc1Palette_some h0 h1, hmode]

/-- An opaque pixel of a block with equal endpoints has their colour (R206, R211). -/
theorem bc1Value_opaque {u : State} {t : T3Rgb} {c : BitVec 16} {pal : Vector PalEntry 4}
    (hpal : u.pal = ramp3 t c c pal) {csel : BitVec 32} {p : Fin 16} (hk : colourIndex csel p.val ≠ 3) :
    bc1Value u csel p = BitVec.ofNat 32 (0x00FF0000 + c.toNat) := by
  have hentry : u.pal[(colourIndex csel p.val).toFin] = colourEntry c _ :=
    hpal ▸ getElem_ramp3_self_of_ne_three t c pal fun h => hk (BitVec.toFin_inj.1 h)
  rw [bc1Value, hentry, palPixel_colourEntry, if_neg fun h => hk h.2]
  rfl

/-- A transparent pixel of a block with equal endpoints has their colour, or 0 under ZERO (R206, R211). -/
theorem bc1Value_transparent {u : State} {t : T3Rgb} {c : BitVec 16} {pal : Vector PalEntry 4}
    (hpal : u.pal = ramp3 t c c pal) (hmode : u.flags.mode4 = false) {csel : BitVec 32} {p : Fin 16}
    (hk : colourIndex csel p.val = 3) :
    bc1Value u csel p = BitVec.ofNat 32 (if t = .zero then 0 else c.toNat) := by
  have hentry : u.pal[(colourIndex csel p.val).toFin] = colourEntry (if t = .zero then 0 else c) pal[3].a := by
    simp only [hpal, hk]
    exact getElem_ramp3_self_three t c pal
  rw [bc1Value, hentry, palPixel_colourEntry, if_pos ⟨hmode, hk⟩]
  split <;> simp

/-- The canvas of a finished block holds the word of each pixel at the pixel's cell (R18, R291). -/
theorem canvasCell_tileCells {t : State} {c : Canvas} {ox oy : Nat} {val : Fin 16 → Word}
    (ht : t.canvas = some { c with cells := tileCells c ox oy val allPixels c.cells }) (hx : ox + 3 < c.width)
    (hy : oy + 3 < c.height) (p : Fin 16) : t.canvasCell (pixelCell c ox oy p) = some (val p) := by
  rw [State.canvasCell, ht]
  exact lookupCell_tileCells_mem val hx hy nodup_allPixels (mem_allPixels p) c.cells

/-! ### The obligation -/

/-- Settles O19: C0 > C1 fails for equal endpoints, so the ramp is the three-colour one, and each step of it between
equal endpoints is that endpoint. -/
theorem bc1EqualEndpointsAreThreeColour : Obligations.Bc1EqualEndpointsAreThreeColour := by
  intro s t c a ox oy n n2 htile h0 h1 h2 h
  obtain ⟨hf, hc, hx, hy⟩ := htile
  obtain ⟨-, rfl⟩ := whenLive_next_iff.1 h
  have hn : (BitVec.ofNat 16 n).toNat = n := Nat.mod_eq_of_lt (inRead_lt h0)
  have hn2 : n2 < 2 ^ 32 := inRead_lt h2
  have hblock := bc1Block_tile hf hc hx hy h0 h1 h2 (bc1Palette_self rfl rfl).symm
  have hcell := canvasCell_tileCells (congrArg State.canvas hblock) hx hy
  refine ⟨by rw [hblock]; rfl, fun k hk => ?_, fun p => ⟨fun hci => ?_, fun hci => ?_⟩⟩
  · have hk3 : k ≠ 3 := by rintro rfl; exact absurd hk (by decide)
    have hentry : (bc1Block a ox oy s).pal[k] = colourEntry (BitVec.ofNat 16 n) s.pal[k].a := by
      rw [hblock]
      exact getElem_ramp3_self_of_ne_three _ _ _ hk3
    rw [hentry]
    exact ⟨unpack565_r_toNat _, unpack565_g_toNat _, unpack565_b_toNat _⟩
  · rw [hcell, bc1Value_opaque rfl (mt (colourIndex_eq_three hn2 p).1 hci), hn]
  · rw [hcell, bc1Value_transparent (t := s.params.bc1T3Rgb) rfl rfl ((colourIndex_eq_three hn2 p).2 hci), hn]

end Sys2Proof.Machine
end

section
/-! PROOFS. BC2 blocks (42_bc2.md R240 to R245): the four-colour ramp as numbers, the nibble alpha, a palette pixel's
word in its cell, and the block itself. -/

namespace Sys2Proof.Machine

open Sys2Proof.Claims

/-! ### The four-colour ramp -/

/-- Interpolating between two lane values stays below their bound (R204). -/
theorem ramp4Lane_lt {x y m : Nat} (hx : x < m) (hy : y < m) (k : Nat) : ramp4Lane x y k < m := by
  unfold ramp4Lane
  split_ifs <;> omega

/-- The lane rule of the ramp gives the four entries of R204. -/
theorem lane4_of_ramp4Lane {e : Fin 4 → Nat} {x y : Nat} (h : ∀ k, e k = ramp4Lane x y k.val) : lane4 e x y :=
  ⟨h 0, h 1, h 2, h 3⟩

/-- Every lane of RAMP4 follows the rule of R204: no lane overflows its width. -/
theorem palFollows_ramp4 (c0 c1 : BitVec 16) (pal : Vector PalEntry 4) : palFollows lane4 (ramp4 c0 c1 pal) c0 c1 := by
  simp only [palFollows, ← unpack565_r_toNat, ← unpack565_g_toNat, ← unpack565_b_toNat]
  refine ⟨lane4_of_ramp4Lane fun k => ?_, lane4_of_ramp4Lane fun k => ?_, lane4_of_ramp4Lane fun k => ?_⟩ <;>
  · rw [ramp4, getElem_rampPal]
    exact Nat.mod_eq_of_lt (ramp4Lane_lt (BitVec.isLt _) (BitVec.isLt _) _)

/-- RAMP4 writes no field A (notes/assumptions/10.md). -/
theorem getElem_ramp4_a (c0 c1 : BitVec 16) (pal : Vector PalEntry 4) (k : Fin 4) :
    (ramp4 c0 c1 pal)[k].a = pal[k].a := by
  rw [ramp4, getElem_rampPal]
  rfl

/-! ### The pixel of a palette entry -/

/-- The palette entry a pixel selects is the one its digit of CSEL names (R129). -/
theorem colourIndex_toFin {n p : Nat} {k : Fin 4} (hn : n < 2 ^ 32) (hk : ci n p = k.val) :
    (colourIndex (BitVec.ofNat 32 n) p).toFin = k :=
  Fin.ext ((colourIndex_toNat hn p).trans hk)

/-- A cell that holds the pixel word of a palette entry (R131). -/
theorem cellIs_palPixel {t : State} {i : Nat} {e : PalEntry} {a : Byte} (h : t.canvasCell i = some (palPixel e a)) :
    cellIs t i e a.toNat :=
  ⟨_, h, pixelWord_toNat _ _ _ _⟩

/-- A finished block writes its tile only (R200). -/
theorem onlyTileWritten_tileCells {t : State} {c : Canvas} {ox oy : Nat} {val : Fin 16 → Word}
    (ht : t.canvas = some { c with cells := tileCells c ox oy val allPixels c.cells }) : onlyTileWritten c t ox oy := by
  refine ⟨_, ht, rfl, rfl, fun i hi => ?_⟩
  simp only [lookupCell_tileCells_other val hi]

/-! ### The nibble alpha -/

/-- The alpha nibble of pixel `p` is digit `p` of AFIELD to the base 16 (R130). -/
theorem alphaNibble_toNat {n : Nat} (hn : n < 2 ^ 64) (p : Nat) :
    (alphaNibble (BitVec.ofNat 64 n) p).toNat = an n p := by
  simp only [alphaNibble, sel, an, BitVec.extractLsb'_toNat, BitVec.toNat_ofNat, Nat.mod_eq_of_lt hn,
    Nat.shiftRight_eq_div_pow, Nat.pow_mul]

/-- The two halves of the expanded alpha do not overlap, so it is their sum (R242). -/
theorem nibbleAlpha_toNat (n : BitVec 4) : (nibbleAlpha n).toNat = n.toNat + n.toNat * 2 ^ 4 := by
  rw [nibbleAlpha, BitVec.toNat_append, ← Nat.shiftLeft_add_eq_or_of_lt n.isLt, Nat.shiftLeft_eq, Nat.add_comm]

/-- The word of a BC2 pixel is the palette entry its digit of CSEL names with its own nibble in both halves of the alpha
(R242, R243). -/
theorem bc2Value_eq_palPixel {n2 : Nat} (s : State) (f : BitVec 64) {p : Fin 16} {k : Fin 4} (hn : n2 < 2 ^ 32)
    (hk : ci n2 p.val = k.val) :
    bc2Value s (BitVec.ofNat 32 n2) f p = palPixel s.pal[k] (nibbleAlpha (alphaNibble f p.val)) := by
  simp only [bc2Value, colourIndex_toFin hn hk]

/-- The state in which the pixels of a BC2 block are resolved: the operands loaded, MODE4 set and the four-colour ramp
in PAL (R240, R241). -/
def bc2Prepared (s : State) (nf n0 n1 n2 : Nat) : State :=
  { s with
    dp := {
      c0 := some (BitVec.ofNat 16 n0), c1 := some (BitVec.ofNat 16 n1), csel := some (BitVec.ofNat 32 n2)
      afield := some (BitVec.ofNat 64 nf) }
    flags := { s.flags with mode4 := true }
    pal := ramp4 (BitVec.ofNat 16 n0) (BitVec.ofNat 16 n1) s.pal }

/-- The loads of R240 and the palette of R241 leave that state. -/
theorem fourColourPalette_eq_bc2Prepared (s : State) (nf n0 n1 n2 : Nat) :
    fourColourPalette ((((s.setAfield nf).setC0 n0).setC1 n1).setCsel n2) = bc2Prepared s nf n0 n1 n2 := by
  rw [fourColourPalette_some rfl rfl]
  simp [bc2Prepared]

/-! ### The obligation -/

/-- Settles O17: with both endpoints loaded the palette is always the four-colour ramp, and the 16 words of the tile are
its entries with the expanded nibbles. -/
theorem decodeBc2ResolvesItsBlock : Obligations.DecodeBc2ResolvesItsBlock := by
  intro s c a ox oy nf n0 n1 n2 htile h h0 h1 h2
  obtain ⟨hf, hc, hx, hy⟩ := htile
  have hblock := bc2Block_tile hf hc hx hy h h0 h1 h2 (fourColourPalette_eq_bc2Prepared s nf n0 n1 n2).symm
  have hpal : (bc2Block a ox oy s).pal = ramp4 (BitVec.ofNat 16 n0) (BitVec.ofNat 16 n1) s.pal :=
    congrArg State.pal hblock
  have hcanvas : (bc2Block a ox oy s).canvas = _ := congrArg State.canvas hblock
  refine ⟨bc2Block a ox oy s, whenLive_next_iff.2 ⟨hf, rfl⟩, ?_, ?_, fun k => ?_, fun p k hk => ?_,
    onlyTileWritten_tileCells hcanvas⟩
  · rw [hpal, hcanvas]
    exact hblock
  · rw [hpal]
    exact palFollows_ramp4 _ _ _
  · rw [hpal]
    exact getElem_ramp4_a _ _ _ _
  · have hcell := canvasCell_tileCells hcanvas hx hy p
    rw [bc2Value_eq_palPixel _ _ (inRead_lt h2) hk] at hcell
    rw [← alphaNibble_toNat (inRead_lt h) p.val, ← nibbleAlpha_toNat, hpal]
    exact cellIs_palPixel hcell

end Sys2Proof.Machine
end

section
/-! PROOFS. BC3 blocks (43_bc3.md R260 to R266): the alpha ramp as numbers in both modes, the alpha index of a pixel,
the block itself, and the block whose alpha endpoints are equal. -/

namespace Sys2Proof.Machine

open Sys2Proof.Claims

/-! ### The alpha ramp -/

/-- A mean of two values, with weights that add up to the divisor, stays below their bound. -/
theorem weightedMean_lt {x y m u v d : Nat} (hx : x < m) (hy : y < m) (hd : u + v = d) :
    (x * u + y * v) / d < m := by
  obtain ⟨b, rfl⟩ : ∃ b, m = b + 1 := ⟨m - 1, by omega⟩
  refine Nat.lt_succ_of_le (Nat.div_le_of_le_mul ?_)
  calc x * u + y * v ≤ b * u + b * v :=
        Nat.add_le_add (Nat.mul_le_mul_right u (Nat.le_of_lt_succ hx)) (Nat.mul_le_mul_right v (Nat.le_of_lt_succ hy))
    _ = d * b := by rw [← Nat.mul_add, hd, Nat.mul_comm]

/-- Every entry of the alpha ramp fits its byte: both branches interpolate between bytes (R262). -/
theorem alphaRampEntry_lt {a0 a1 : Nat} (h0 : a0 < 256) (h1 : a1 < 256) (k : Fin 8) :
    alphaRampEntry a0 a1 k.val < 256 := by
  unfold alphaRampEntry
  split_ifs
  · exact h0
  · exact h1
  · exact weightedMean_lt h0 h1 (by omega)
  · decide
  · decide
  · exact weightedMean_lt h0 h1 (by omega)

theorem getElem_alphaRamp_toNat (a0 a1 : Byte) (k : Fin 8) :
    (alphaRamp a0 a1)[k].toNat = alphaRampEntry a0.toNat a1.toNat k.val := by
  have hentry : (alphaRamp a0 a1)[k] = BitVec.ofNat 8 (alphaRampEntry a0.toNat a1.toNat k.val) := by
    fin_cases k <;> rfl
  rw [hentry, BitVec.toNat_ofNat, Nat.mod_eq_of_lt (alphaRampEntry_lt a0.isLt a1.isLt k)]

/-- With a0 > a1 ARAMP is the 7-step ramp (R262). -/
theorem sevenStep_alphaRamp {a0 a1 : Byte} (h : a0.toNat > a1.toNat) :
    sevenStep (fun k => (alphaRamp a0 a1)[k].toNat) a0.toNat a1.toNat := by
  simp only [sevenStep, getElem_alphaRamp_toNat]
  refine ⟨rfl, rfl, fun k hk => ?_⟩
  rw [alphaRampEntry, if_neg (by omega), if_neg (by omega), if_pos h]

/-- With a0 ≤ a1 ARAMP is the 5-step ramp (R262). -/
theorem fiveStep_alphaRamp {a0 a1 : Byte} (h : a0.toNat ≤ a1.toNat) :
    fiveStep (fun k => (alphaRamp a0 a1)[k].toNat) a0.toNat a1.toNat := by
  have hmode : ¬ a0.toNat > a1.toNat := by omega
  simp only [fiveStep, getElem_alphaRamp_toNat]
  refine ⟨rfl, rfl, fun k hk hk5 => ?_, ?_, ?_⟩
  · rw [alphaRampEntry, if_neg (by omega), if_neg (by omega), if_neg hmode, if_neg (by omega), if_neg (by omega)]
  · simp [alphaRampEntry, hmode]
  · simp [alphaRampEntry, hmode]

/-- Between equal endpoints the first six entries of the 5-step ramp are that endpoint (R266). -/
theorem fiveStep_self {e : Fin 8 → Nat} {a : Nat} (h : fiveStep e a a) {k : Fin 8} (hk : k.val ≤ 5) : e k = a := by
  obtain ⟨h0, h1, hstep, -, -⟩ := h
  by_cases hk2 : 2 ≤ k.val
  · have hsum : a * (6 - k.val) + a * (k.val - 1) = a * 5 := by
      rw [← Nat.mul_add]
      congr 1
      omega
    rw [hstep k hk2 hk, hsum, Nat.mul_div_cancel _ (by decide)]
  · obtain rfl | rfl : k = 0 ∨ k = 1 := by omega
    · exact h0
    · exact h1

/-! ### The fields of AFIELD -/

/-- The first alpha endpoint is AFIELD's byte 0 (R133). -/
theorem afield_alpha0 (n : Nat) : (BitVec.ofNat 64 n).extractLsb' 0 8 = BitVec.ofNat 8 n := by
  apply BitVec.eq_of_toNat_eq
  simp only [BitVec.extractLsb'_toNat, BitVec.toNat_ofNat, Nat.shiftRight_zero]
  omega

/-- The second alpha endpoint is AFIELD's byte 1 (R133). -/
theorem afield_alpha1 (n : Nat) : (BitVec.ofNat 64 n).extractLsb' 8 8 = BitVec.ofNat 8 (n / 256) := by
  apply BitVec.eq_of_toNat_eq
  simp only [BitVec.extractLsb'_toNat, BitVec.toNat_ofNat, Nat.shiftRight_eq_div_pow]
  omega

/-- The alpha index of pixel `p` is digit `p` to the base 8 of AFIELD above its two endpoints (R133). -/
theorem alphaIndex_toNat {n : Nat} (hn : n < 2 ^ 64) (p : Nat) :
    (alphaIndex (BitVec.ofNat 64 n) p).toNat = ai n p := by
  have hfield : n / 2 ^ 16 < 2 ^ 48 := by omega
  simp only [alphaIndex, sel, ai, BitVec.extractLsb'_toNat, BitVec.toNat_ofNat, Nat.mod_eq_of_lt hn,
    Nat.shiftRight_eq_div_pow, Nat.mod_eq_of_lt hfield, Nat.pow_mul]

/-- The ramp entry a pixel selects is the one its digit of AFIELD names (R133). -/
theorem alphaIndex_toFin {n p : Nat} {j : Fin 8} (hn : n < 2 ^ 64) (hj : ai n p = j.val) :
    (alphaIndex (BitVec.ofNat 64 n) p).toFin = j :=
  Fin.ext ((alphaIndex_toNat hn p).trans hj)

/-! ### The block -/

/-- The word of a BC3 pixel is the palette entry its digit of CSEL names with the ramp entry its digit of AFIELD names
(R263). -/
theorem bc3Value_eq_palPixel {nf n2 : Nat} (s : State) {p : Fin 16} {k : Fin 4} {j : Fin 8} (hn : n2 < 2 ^ 32)
    (hk : ci n2 p.val = k.val) (hnf : nf < 2 ^ 64) (hj : ai nf p.val = j.val) :
    bc3Value s (BitVec.ofNat 32 n2) (BitVec.ofNat 64 nf) p = palPixel s.pal[k] s.aramp[j] := by
  simp only [bc3Value, colourIndex_toFin hn hk, alphaIndex_toFin hnf hj]

/-- The state in which the pixels of a BC3 block are resolved: what BC2's operands and palette leave, with AMODE7 and
the alpha ramp of the block's two endpoints (R260 to R262). -/
def bc3Prepared (s : State) (nf n0 n1 n2 : Nat) : State :=
  { bc2Prepared s nf n0 n1 n2 with
    flags := { mode4 := true, amode7 := decide (nf % 256 > nf / 256 % 256) }
    aramp := alphaRamp (BitVec.ofNat 8 nf) (BitVec.ofNat 8 (nf / 256)) }

/-- The loads of R260, the palette of R261 and the alpha ramp of R262 leave that state. -/
theorem bc3AlphaRamp_eq_bc3Prepared (s : State) (nf n0 n1 n2 : Nat) :
    bc3AlphaRamp (fourColourPalette ((((s.setAfield nf).setC0 n0).setC1 n1).setCsel n2))
      = bc3Prepared s nf n0 n1 n2 := by
  rw [fourColourPalette_eq_bc2Prepared, bc3AlphaRamp_some rfl, afield_alpha0, afield_alpha1]
  simp [bc3Prepared, bc2Prepared, bc3Amode7, State.setAmode7]

/-! ### The obligations -/

/-- Settles O18: the palette is always the four-colour ramp, the comparison of AFIELD's first two bytes selects the
alpha ramp, and the 16 words of the tile are palette entries with the ramp entries their digits of AFIELD name. -/
theorem decodeBc3ResolvesItsBlock : Obligations.DecodeBc3ResolvesItsBlock := by
  intro s c a ox oy nf n0 n1 n2 htile h h0 h1 h2
  obtain ⟨hf, hc, hx, hy⟩ := htile
  have hblock := bc3Block_tile hf hc hx hy h h0 h1 h2 (bc3AlphaRamp_eq_bc3Prepared s nf n0 n1 n2).symm
  have hpal : (bc3Block a ox oy s).pal = ramp4 (BitVec.ofNat 16 n0) (BitVec.ofNat 16 n1) s.pal :=
    congrArg State.pal hblock
  have haramp : (bc3Block a ox oy s).aramp = alphaRamp (BitVec.ofNat 8 nf) (BitVec.ofNat 8 (nf / 256)) :=
    congrArg State.aramp hblock
  have hcanvas : (bc3Block a ox oy s).canvas = _ := congrArg State.canvas hblock
  refine ⟨bc3Block a ox oy s, whenLive_next_iff.2 ⟨hf, rfl⟩, ?_, ?_, fun k => ?_, fun hmode => ?_,
    fun hmode => ?_, fun p k j hk hj => ?_, onlyTileWritten_tileCells hcanvas⟩
  · rw [hpal, haramp, hcanvas]
    exact hblock
  · rw [hpal]
    exact palFollows_ramp4 _ _ _
  · rw [hpal]
    exact getElem_ramp4_a _ _ _ _
  · rw [haramp]
    exact sevenStep_alphaRamp hmode
  · rw [haramp]
    exact fiveStep_alphaRamp hmode
  · have hcell := canvasCell_tileCells hcanvas hx hy p
    rw [bc3Value_eq_palPixel _ (inRead_lt h2) hk (inRead_lt h) hj] at hcell
    rw [hpal, haramp]
    exact cellIs_palPixel hcell

/-- Settles O20: a0 > a1 fails for equal endpoints, so ARAMP is the 5-step ramp, and each step of it between equal
endpoints is that endpoint. -/
theorem bc3EqualAlphasTakeFiveSteps : Obligations.Bc3EqualAlphasTakeFiveSteps := by
  intro s t c a ox oy nf n0 n1 n2 htile h h0 h1 h2 heq hexec
  obtain ⟨t', hnext, hframe, -, -, -, hfive, -, -⟩ :=
    decodeBc3ResolvesItsBlock s c a ox oy nf n0 n1 n2 htile h h0 h1 h2
  obtain rfl : t' = t := Host.Outcome.next.inj (hnext.symm.trans hexec)
  have hramp := hfive heq.le
  rw [← heq] at hramp
  have hflags : t'.flags.amode7 = decide (nf % 256 > nf / 256 % 256) :=
    congrArg (fun u : State => u.flags.amode7) hframe
  refine ⟨?_, fun k hk => fiveStep_self hramp hk, ?_, ?_⟩
  · rw [hflags, heq]
    exact decide_eq_false (lt_irrefl _)
  · obtain ⟨-, -, -, h6, -⟩ := hramp
    exact BitVec.eq_of_toNat_eq h6
  · obtain ⟨-, -, -, -, h7⟩ := hramp
    exact BitVec.eq_of_toNat_eq h7

end Sys2Proof.Machine
end

section
/-! PROOFS. The invariant of the machine (10_state.md R31, R35, R51; 45_orchestrator.md R322): what each sequencer step
can do, the two parts of the invariant, and why the engine's steps and the host's actions keep them. -/

namespace Sys2Proof.Machine

/-! ### What a sequencer step does -/

/-- PARSE never misses a byte where IN is covered: it latches a header or raises a fatal error (R183). -/
theorem parseStep_covered {s : State} (hc : inCovered s) :
    (∃ bs, s.parseStep = s.latchHeader bs) ∨ ∃ c, s.parseStep = s.fatalError c := by
  by_cases hshort : s.inLen.toNat < 4
  · exact .inr ⟨_, parseStep_short hshort⟩
  obtain ⟨m, hm⟩ := inRead_isSome (s := s) (a := 0) (n := 4) (by omega) hc
  by_cases hmagic : m = blp2Magic
  · subst hmagic
    rw [parseStep_magic hm]
    by_cases htrunc : s.inLen.toNat < 148
    · exact .inr ⟨_, parseHeader_truncated htrunc⟩
    · obtain ⟨bs, hbs⟩ := inReadBytes_isSome (s := s) (a := 0) (n := 148) (by omega) hc
      exact .inl ⟨bs, parseHeader_latch hbs⟩
  · exact .inr ⟨_, parseStep_otherMagic hm hmagic⟩

/-- A level passes the checks of SETUP exactly when each of them passes (R313 to R318). -/
theorem firstLevelError_eq_none {p : Params} {v : Option Variant} {inLen : Nat} {l : Lvl} :
    firstLevelError p v inLen l = none ↔
      badDimensions p.dimPolicy l.curW l.curH = false ∧ v ≠ none ∧ l.sliceBase + l.sliceLen ≤ inLen
        ∧ l.nbx * l.nby * l.bs ≤ l.sliceLen ∧ badAllocation p.canvasCapacity l.curW l.curH = false := by
  unfold firstLevelError
  split_ifs <;> simp_all

/-- SETUP ends the directory, or gives the level an error, or starts it after every check has passed (R312, R313). -/
theorem setupStep_cases (s : State) :
    s.setupStep = s.goto .endRun
      ∨ s.seq.level.val < 16
        ∧ ((∃ c, s.setupStep = ({ s with lvl := levelRegs s }).levelError c)
          ∨ firstLevelError s.params (variantOf (hdrVsel s.hdr)) s.inLen.toNat (levelRegs s) = none
            ∧ s.setupStep = ({ s with lvl := levelRegs s }).startLevel) := by
  by_cases hend : atTerminator s = true
  · exact .inl (by simp [State.setupStep, hend])
  · have hlevel : s.seq.level.val < 16 := by
      have hne : s.seq.level ≠ 16 := fun h => hend (by simp [atTerminator, h])
      omega
    refine .inr ⟨hlevel, ?_⟩
    cases hcheck : firstLevelError s.params (variantOf (hdrVsel s.hdr)) s.inLen.toNat (levelRegs s) with
    | some c => exact .inl ⟨c, by simp [State.setupStep, State.checkLevel, hend, hcheck]⟩
    | none => exact .inr ⟨rfl, by simp [State.setupStep, State.checkLevel, hend, hcheck]⟩

/-- EMIT puts out the image, or gives the level an IO_ERROR (R350). -/
theorem emitStep_cases (s : State) :
    s.emitStep = s.useAnswer.acceptImage s.image ∨ s.emitStep = s.useAnswer.levelError .ioError := by
  unfold State.emitStep
  split
  · exact .inl rfl
  · exact .inr rfl

/-! ### What a block decoder keeps (R200) -/

theorem decoderFrame_params {s t : State} (h : decoderFrame s t) : t.params = s.params := by
  rw [h]

theorem decoderFrame_inMem {s t : State} (h : decoderFrame s t) : t.inMem = s.inMem := by
  rw [h]

theorem decoderFrame_inLen {s t : State} (h : decoderFrame s t) : t.inLen = s.inLen := by
  rw [h]

theorem decoderFrame_lvl {s t : State} (h : decoderFrame s t) : t.lvl = s.lvl := by
  rw [h]

theorem decoderFrame_issue {s t : State} (h : decoderFrame s t) : t.issue = s.issue := by
  rw [h]

/-! ### A block of a level that passed its checks -/

/-- The tile of a block of the grid lies inside the level's canvas (R320, R322). -/
theorem blockXY_inside {l : Lvl} {k : Nat} (hx : l.nbx = l.curW / 4) (hy : l.nby = l.curH / 4)
    (hk : k < l.nbx * l.nby) : blockX l k + 3 < l.curW ∧ blockY l k + 3 < l.curH := by
  have hpos : 0 < l.nbx := Nat.pos_of_mul_pos_right (Nat.zero_lt_of_lt hk)
  have hcol : k % l.nbx < l.nbx := Nat.mod_lt k hpos
  have hrow : k / l.nbx < l.nby := Nat.div_lt_of_lt_mul hk
  unfold blockX blockY
  omega

/-- A block of the grid lies below IN_LEN (R321, R322). -/
theorem LevelReady.blockAddr_le {s : State} (h : LevelReady s) {k : Nat} (hk : k < s.lvl.nbx * s.lvl.nby) :
    blockAddr s.lvl k + blockSize s.lvl.variant ≤ s.inLen.toNat := by
  have hblocks : (k + 1) * s.lvl.bs ≤ s.lvl.nbx * s.lvl.nby * s.lvl.bs := Nat.mul_le_mul_right _ hk
  have hslice := h.slice
  have hpayload := h.payload
  rw [Nat.add_mul, Nat.one_mul] at hblocks
  rw [blockAddr, ← h.bs]
  omega

/-- Storing pixels of a tile keeps a canvas sound. -/
theorem canvasSound_tileCells {c : Canvas} {ox oy : Nat} (val : Fin 16 → Word) (hx : ox + 3 < c.width)
    (hy : oy + 3 < c.height) (ps : List (Fin 16)) {m : Cells} (h : canvasSound { c with cells := m }) :
    canvasSound { c with cells := tileCells c ox oy val ps m } := by
  induction ps generalizing m with
  | nil => exact h
  | cons p ps ih =>
    obtain ⟨hwf, hw, hh, hin⟩ := h
    have hindex : tileIndex c ox oy p < c.width * c.height := storageIndex_lt (by omega) (by omega)
    exact ih ⟨Cells.wf_storeCell m _ _ hwf, hw, hh,
      forall_mem_storeCell (P := (· < c.width * c.height)) m _ _ hin hindex⟩

/-- Decoding a block of a level that passed its checks sets no fault, leaves PIX at 0 and keeps the canvas sound and of
its size (R322). -/
theorem LevelReady.decodeBlock {s : State} (h : LevelReady s) (hf : s.fault = none) (hin : inCovered s)
    (hsound : ∀ c, s.canvas = some c → canvasSound c) {k : Nat} (hk : k < s.lvl.nbx * s.lvl.nby) {t : State}
    (ht : t = decodeBlock s.lvl.variant (blockAddr s.lvl k) (blockX s.lvl k) (blockY s.lvl k) s) :
    t.fault = none ∧ t.seq = { s.seq with pix := 0 }
      ∧ ∃ c, t.canvas = some c ∧ c.width = s.lvl.curW ∧ c.height = s.lvl.curH ∧ canvasSound c := by
  obtain ⟨c, hc, hw, hh⟩ := h.canvas
  obtain ⟨hx, hy⟩ := blockXY_inside h.nbx h.nby hk
  rw [← hw] at hx
  rw [← hh] at hy
  obtain ⟨val, hfault, hcanvas, hseq⟩ := decodeBlock_tile s.lvl.variant hf hc hx hy (h.blockAddr_le hk) hin
  rw [← ht] at hfault hcanvas hseq
  exact ⟨hfault, hseq, _, hcanvas, hw, hh, canvasSound_tileCells val hx hy allPixels (hsound c hc)⟩

/-! ### The two parts of the invariant -/

/-- What the invariant says of every state, whatever level is under way. -/
structure RunSound (s : State) : Prop where
  memWf : Memory.wf s.inMem = true
  noFault : s.fault = none
  noIssue : s.issue = none
  busy : s.status.busy = true ↔ s.seq.step ≠ .idle
  covered : s.status.busy = true → inCovered s
  pix : s.seq.pix = 0

/-- What the invariant says of the canvas and of the level under way. -/
structure LevelSound (s : State) : Prop where
  canvasLife : s.canvas ≠ none → s.seq.step = .decode ∨ s.seq.step = .emit ∨ s.seq.step = .nextLevel
  canvasSound : ∀ c, s.canvas = some c → canvasSound c
  decoding : s.seq.step = .decode → LevelReady s ∧ s.seq.block ≤ s.lvl.nbx * s.lvl.nby
  emitting : s.seq.step = .emit → LevelReady s
  levelDone : s.seq.step = .nextLevel → s.seq.level.val < 16

theorem inv_iff {s : State} : Inv s ↔ RunSound s ∧ LevelSound s where
  mp h := ⟨⟨h.memWf, h.noFault, h.noIssue, h.busy, h.covered, h.pix⟩,
    ⟨h.canvasLife, h.canvasSound, h.decoding, h.emitting, h.levelDone⟩⟩
  mpr h := ⟨h.1.memWf, h.1.noFault, h.1.noIssue, h.1.busy, h.1.covered, h.1.pix, h.2.canvasLife, h.2.canvasSound,
    h.2.decoding, h.2.emitting, h.2.levelDone⟩

/-- A level that passed its checks stays so while its registers, IN_LEN and the parameters stay and its canvas keeps its
size. -/
theorem LevelReady.congr {s t : State} (h : LevelReady s) (hlevel : t.seq.level = s.seq.level) (hlvl : t.lvl = s.lvl)
    (hlen : t.inLen = s.inLen) (hparams : t.params = s.params)
    (hcanvas : ∃ c, t.canvas = some c ∧ c.width = s.lvl.curW ∧ c.height = s.lvl.curH) : LevelReady t where
  level := hlevel ▸ h.level
  canvas := hlvl ▸ hcanvas
  nbx := hlvl ▸ h.nbx
  nby := hlvl ▸ h.nby
  bs := hlvl ▸ h.bs
  slice := hlvl ▸ hlen ▸ h.slice
  payload := hlvl ▸ h.payload
  fileSize := hlvl ▸ h.fileSize
  whole := hlvl ▸ hparams ▸ h.whole

/-- Between two levels there is no canvas and nothing to say of a level. -/
theorem LevelSound.of_noCanvas {s : State} (hc : s.canvas = none) (hd : s.seq.step ≠ .decode)
    (he : s.seq.step ≠ .emit) (hn : s.seq.step = .nextLevel → s.seq.level.val < 16) : LevelSound s where
  canvasLife h := absurd hc h
  canvasSound c h := by simp [hc] at h
  decoding h := absurd h hd
  emitting h := absurd h he
  levelDone := hn

/-- The canvas and the level stay sound where nothing they are read from changes. -/
theorem LevelSound.congr {s t : State} (h : LevelSound s) (hseq : t.seq = s.seq) (hlvl : t.lvl = s.lvl)
    (hlen : t.inLen = s.inLen) (hparams : t.params = s.params) (hcanvas : t.canvas = s.canvas) : LevelSound t where
  canvasLife := hseq ▸ hcanvas ▸ h.canvasLife
  canvasSound := hcanvas ▸ h.canvasSound
  decoding hd := by
    rw [hseq] at hd
    obtain ⟨hready, hblock⟩ := h.decoding hd
    exact ⟨hready.congr (by rw [hseq]) hlvl hlen hparams (hcanvas ▸ hready.canvas), hseq ▸ hlvl ▸ hblock⟩
  emitting he := by
    rw [hseq] at he
    have hready := h.emitting he
    exact hready.congr (by rw [hseq]) hlvl hlen hparams (hcanvas ▸ hready.canvas)
  levelDone := hseq ▸ h.levelDone

/-- Outside DECODE, EMIT and NEXT there is no canvas (R51). -/
theorem LevelSound.canvas_eq_none {s : State} (h : LevelSound s)
    (hstep : ¬ (s.seq.step = .decode ∨ s.seq.step = .emit ∨ s.seq.step = .nextLevel)) : s.canvas = none := by
  by_contra hc
  exact hstep (h.canvasLife hc)

/-- `t` keeps what a sequencer step of a run leaves alone: IN, BUSY, FAULT, the issue latch and PIX; and the run goes
on. -/
structure RunGoesOn (s t : State) : Prop where
  inMem : t.inMem = s.inMem
  inLen : t.inLen = s.inLen
  busy : t.status.busy = s.status.busy
  fault : t.fault = s.fault
  issue : t.issue = s.issue
  pix : t.seq.pix = s.seq.pix
  step : t.seq.step ≠ .idle

theorem RunSound.of_runGoesOn {s t : State} (h : RunSound s) (hs : s.seq.step ≠ .idle) (ht : RunGoesOn s t) :
    RunSound t where
  memWf := ht.inMem ▸ h.memWf
  noFault := ht.fault.trans h.noFault
  noIssue := ht.issue.trans h.noIssue
  busy := by rw [ht.busy]; exact ⟨fun _ => ht.step, fun _ => h.busy.2 hs⟩
  covered _ := by
    have hcovered := h.covered (h.busy.2 hs)
    unfold inCovered
    rw [ht.inMem, ht.inLen]
    exact hcovered
  pix := ht.pix.trans h.pix

/-- A sequencer step that leaves no canvas keeps the invariant. -/
theorem RunSound.inv_of_noCanvas {s t : State} (h : RunSound s) (hs : s.seq.step ≠ .idle) (ht : RunGoesOn s t)
    (hc : t.canvas = none) (hd : t.seq.step ≠ .decode) (he : t.seq.step ≠ .emit)
    (hn : t.seq.step = .nextLevel → t.seq.level.val < 16) : Inv t :=
  inv_iff.2 ⟨h.of_runGoesOn hs ht, .of_noCanvas hc hd he hn⟩

/-! ### The steps of the sequencer -/

/-- The level registers of SETUP describe a level that passed its checks, on the blank canvas made for it (R313). -/
theorem levelReady_startLevel {s : State} (hlevel : s.seq.level.val < 16)
    (hcheck : firstLevelError s.params (variantOf (hdrVsel s.hdr)) s.inLen.toNat (levelRegs s) = none) :
    LevelReady ({ s with lvl := levelRegs s }).startLevel := by
  obtain ⟨hdim, hvariant, hslice, hpayload, halloc⟩ := firstLevelError_eq_none.1 hcheck
  obtain ⟨v, hv⟩ := Option.ne_none_iff_exists'.1 hvariant
  simp only [badDimensions, Bool.or_eq_false_iff, Bool.and_eq_false_iff, decide_eq_false_iff_not] at hdim
  simp only [badAllocation, Bool.or_eq_false_iff, decide_eq_false_iff_not, not_lt] at halloc
  exact {
    level := hlevel
    canvas := ⟨_, rfl, rfl, rfl⟩
    nbx := rfl
    nby := rfl
    bs := by simp [State.startLevel, levelRegs, hv]
    slice := hslice
    payload := hpayload
    fileSize := halloc.1
    whole := fun hpol => by
      have hfour := hdim.2.resolve_left (not_not_intro hpol)
      exact ⟨by_contra fun h => hfour (.inl h), by_contra fun h => hfour (.inr h)⟩ }

/-- The blank canvas of a level that passed the dimension check is sound (R290, R314). -/
theorem canvasSound_blankCanvas {pol : DimPolicy} {w h : Nat} (hdim : badDimensions pol w h = false) :
    canvasSound (blankCanvas w h) := by
  simp only [badDimensions, Bool.or_eq_false_iff, decide_eq_false_iff_not, not_or] at hdim
  exact ⟨rfl, Nat.pos_of_ne_zero hdim.1.1, Nat.pos_of_ne_zero hdim.1.2, fun p hp => by cases hp⟩

theorem Inv.parseStep {s : State} (h : Inv s) (hs : s.seq.step = .parse) : Inv s.parseStep := by
  obtain ⟨hrun, hlevel⟩ := inv_iff.1 h
  have hlive : s.seq.step ≠ .idle := by simp [hs]
  have hcanvas : s.canvas = none := hlevel.canvas_eq_none (by simp [hs])
  rcases parseStep_covered (hrun.covered (hrun.busy.2 hlive)) with ⟨bs, ht⟩ | ⟨c, ht⟩ <;> rw [ht] <;>
    exact hrun.inv_of_noCanvas hlive ⟨rfl, rfl, rfl, rfl, rfl, rfl, nofun⟩ hcanvas nofun nofun nofun

/-- The level error entry keeps the invariant's part on the run and leaves no canvas (R383). -/
theorem inv_levelError {s t : State} {c : LevelCode} (h : RunSound s) (hs : s.seq.step ≠ .idle)
    (hlevel : s.seq.level.val < 16) (ht : RunGoesOn s (t.levelError c)) (hseq : t.seq = s.seq) :
    Inv (t.levelError c) :=
  h.inv_of_noCanvas hs ht rfl (by simp) (by simp) fun _ => by simpa [hseq] using hlevel

theorem Inv.setupStep {s : State} (h : Inv s) (hs : s.seq.step = .setup) : Inv s.setupStep := by
  obtain ⟨hrun, hlevel⟩ := inv_iff.1 h
  have hlive : s.seq.step ≠ .idle := by simp [hs]
  have hcanvas : s.canvas = none := hlevel.canvas_eq_none (by simp [hs])
  rcases setupStep_cases s with ht | ⟨hl, ⟨c, ht⟩ | ⟨hcheck, ht⟩⟩
  · rw [ht]
    exact hrun.inv_of_noCanvas hlive ⟨rfl, rfl, rfl, rfl, rfl, rfl, nofun⟩ hcanvas nofun nofun nofun
  · rw [ht]
    exact inv_levelError hrun hlive hl (by constructor <;> simp) rfl
  · rw [ht]
    refine inv_iff.2 ⟨hrun.of_runGoesOn hlive ⟨rfl, rfl, rfl, rfl, rfl, rfl, nofun⟩, ?_⟩
    exact {
      canvasLife := fun _ => .inl rfl
      canvasSound := fun c hc => by
        cases hc
        exact canvasSound_blankCanvas (firstLevelError_eq_none.1 hcheck).1
      decoding := fun _ => ⟨levelReady_startLevel hl hcheck, Nat.zero_le _⟩
      emitting := nofun
      levelDone := nofun }

theorem Inv.decodeStep {s : State} (h : Inv s) (hs : s.seq.step = .decode) : Inv s.decodeStep := by
  obtain ⟨hrun, hlevel⟩ := inv_iff.1 h
  have hlive : s.seq.step ≠ .idle := by simp [hs]
  obtain ⟨hready, hblock⟩ := hlevel.decoding hs
  unfold State.decodeStep
  split
  case isTrue =>
    refine inv_iff.2 ⟨hrun.of_runGoesOn hlive ⟨rfl, rfl, rfl, rfl, rfl, rfl, nofun⟩, ?_⟩
    exact {
      canvasLife := fun _ => .inr (.inl rfl)
      canvasSound := hlevel.canvasSound
      decoding := nofun
      emitting := fun _ => hready.congr rfl rfl rfl rfl hready.canvas
      levelDone := nofun }
  case isFalse hne =>
    have hk : s.seq.block < s.lvl.nbx * s.lvl.nby := Nat.lt_of_le_of_ne hblock hne
    have hframe := decodeBlock_frame s.lvl.variant (blockAddr s.lvl s.seq.block) (blockX s.lvl s.seq.block)
      (blockY s.lvl s.seq.block) s
    obtain ⟨hfault, hseq, c, hc, hw, hh, hsound⟩ := hready.decodeBlock hrun.noFault
      (hrun.covered (hrun.busy.2 hlive)) hlevel.canvasSound hk rfl
    generalize decodeBlock _ _ _ _ s = t at *
    rw [State.andThen_live _ hfault]
    have hlvl : t.lvl = s.lvl := decoderFrame_lvl hframe
    have hlevelEq : t.seq.level = s.seq.level := by rw [hseq]
    have hblockEq : t.seq.block = s.seq.block := by rw [hseq]
    have hpix : t.seq.pix = s.seq.pix := by rw [hseq, hrun.pix]
    have hgoesOn : RunGoesOn s t.nextBlock := {
      inMem := decoderFrame_inMem (t := t) hframe
      inLen := decoderFrame_inLen (t := t) hframe
      busy := congrArg Status.busy (decoderFrame_status (t := t) hframe)
      fault := hfault.trans hrun.noFault.symm
      issue := decoderFrame_issue (t := t) hframe
      pix := hpix
      step := nofun }
    refine inv_iff.2 ⟨hrun.of_runGoesOn hlive hgoesOn, ?_⟩
    exact {
      canvasLife := fun _ => .inl rfl
      canvasSound := fun c' hc' => by
        cases hc.symm.trans hc'
        exact hsound
      decoding := fun _ => by
        refine ⟨hready.congr hlevelEq hlvl (decoderFrame_inLen (t := t) hframe) (decoderFrame_params (t := t) hframe)
          ⟨c, hc, hw, hh⟩, ?_⟩
        show t.seq.block + 1 ≤ t.lvl.nbx * t.lvl.nby
        rw [hblockEq, hlvl]
        exact hk
      emitting := nofun
      levelDone := nofun }

theorem Inv.emitStep {s : State} (h : Inv s) (hs : s.seq.step = .emit) : Inv s.emitStep := by
  obtain ⟨hrun, hlevel⟩ := inv_iff.1 h
  have hlive : s.seq.step ≠ .idle := by simp [hs]
  have hl := (hlevel.emitting hs).level
  rcases emitStep_cases s with ht | ht
  · rw [ht]
    refine inv_iff.2 ⟨hrun.of_runGoesOn hlive ?_, ?_⟩
    · constructor <;> simp [State.acceptImage, State.useAnswer, State.countVisited]
    · exact {
        canvasLife := fun _ => .inr (.inr rfl)
        canvasSound := by simpa [State.acceptImage, State.useAnswer] using hlevel.canvasSound
        decoding := nofun
        emitting := nofun
        levelDone := fun _ => by simpa [State.acceptImage, State.useAnswer] using hl }
  · rw [ht]
    exact inv_levelError hrun hlive hl (by constructor <;> simp [State.useAnswer]) rfl

theorem Inv.nextLevelStep {s : State} (h : Inv s) (hs : s.seq.step = .nextLevel) : Inv s.nextLevelStep := by
  obtain ⟨hrun, -⟩ := inv_iff.1 h
  have hlive : s.seq.step ≠ .idle := by simp [hs]
  unfold State.nextLevelStep
  split <;> exact hrun.inv_of_noCanvas hlive ⟨rfl, rfl, rfl, rfl, rfl, rfl, nofun⟩ rfl nofun nofun nofun

theorem Inv.endStep {s : State} (h : Inv s) (hs : s.seq.step = .endRun) : Inv s.endStep := by
  obtain ⟨hrun, hlevel⟩ := inv_iff.1 h
  have hcanvas : s.canvas = none := hlevel.canvas_eq_none (by simp [hs])
  exact inv_iff.2 ⟨⟨hrun.memWf, hrun.noFault, hrun.noIssue, by simp [State.endStep], nofun, hrun.pix⟩,
    .of_noCanvas hcanvas nofun nofun nofun⟩

/-- The instruction that STEP names keeps the invariant. -/
theorem Inv.exec_stepInstr {s t : State} {i : Instr} (h : Inv s) (hi : stepInstr s.seq.step = some i)
    (ht : exec i s = .next t) : Inv t := by
  cases hs : s.seq.step <;> rw [hs] at hi <;> cases hi
  case parse => exact (whenLive_next_iff.1 ht).2 ▸ h.parseStep hs
  case setup => exact (whenLive_next_iff.1 ht).2 ▸ h.setupStep hs
  case decode => exact (whenLive_next_iff.1 ht).2 ▸ h.decodeStep hs
  case emit => exact (whenLive_next_iff.1 ht).2 ▸ h.emitStep hs
  case nextLevel => exact (whenLive_next_iff.1 ht).2 ▸ h.nextLevelStep hs
  case endRun => exact (whenLive_next_iff.1 ht).2 ▸ h.endStep hs

/-! ### The host's actions -/

/-- What an answer must be for a step to keep the invariant. -/
def Keeps (o : Answer) : Prop := ∀ t, o = .next t → Inv t

theorem keeps_next {s : State} (h : Inv s) : Keeps (.next s) := by
  rintro t ⟨⟩
  exact h

theorem keeps_refused (r : Refusal) : Keeps (.refused r) := by
  rintro t ⟨⟩

/-- A machine that is not BUSY stands in IDLE without a canvas (R35, R51). -/
theorem Inv.idle {s : State} (h : Inv s) (hb : s.status.busy = false) : s.seq.step = .idle ∧ s.canvas = none := by
  have hidle : s.seq.step = .idle := by
    by_contra hne
    simp [h.busy.2 hne] at hb
  exact ⟨hidle, (inv_iff.1 h).2.canvas_eq_none (by simp [hidle])⟩

/-- In a machine that is not BUSY the host may change IN, IN_LEN and the rest of STATUS. -/
theorem Inv.of_notBusy {s t : State} (h : Inv s) (hb : s.status.busy = false) (hm : Memory.wf t.inMem = true)
    (hbusy : t.status.busy = false) (hf : t.fault = s.fault) (hi : t.issue = s.issue) (hseq : t.seq = s.seq)
    (hc : t.canvas = s.canvas) : Inv t := by
  obtain ⟨hidle, hnone⟩ := h.idle hb
  rw [← hseq] at hidle
  exact inv_iff.2 ⟨⟨hm, hf.trans h.noFault, hi.trans h.noIssue, by simp [hbusy, hidle], by simp [hbusy],
    by rw [hseq]; exact h.pix⟩, .of_noCanvas (hc.trans hnone) (by simp [hidle]) (by simp [hidle]) (by simp [hidle])⟩

/-- The invariant does not read the host's script, its notes, or BADCMD. -/
theorem Inv.hostSide {s : State} (h : Inv s) (host : List HostEvent) (reads : List (Nat × Word)) (bad : Bool) :
    Inv { s with host := host, hostReads := reads, status := { s.status with badCmd := bad } } := by
  obtain ⟨hrun, hlevel⟩ := inv_iff.1 h
  exact inv_iff.2 ⟨⟨hrun.memWf, hrun.noFault, hrun.noIssue, hrun.busy, hrun.covered, hrun.pix⟩,
    hlevel.congr rfl rfl rfl rfl rfl⟩

/-- The duty on IN makes IN covered (R80, R402). -/
theorem inCovered_of_inDuty {s : State} (h : inDuty s = true) : inCovered s := by
  simp only [inDuty, Bool.and_eq_true, decide_eq_true_eq] at h
  exact fun a ha => isSome_lookupCell_of_contiguousFrom s.inMem 0 a h.1 (Nat.zero_le a) (by omega)

/-- CONVERT is ignored while BUSY, or refused, or starts a run with IN covered (R310). -/
theorem Inv.convert {s : State} (h : Inv s) (all : Bool) : Keeps (exec (.convert all) s) := by
  rw [exec, execConvert, whenLive_live _ h.noFault]
  split_ifs with hbusy hlegal hduty
  · exact keeps_next h
  · exact keeps_refused _
  · exact keeps_refused _
  · have hb : s.status.busy = false := by simpa using hbusy
    have hcovered : inCovered s := inCovered_of_inDuty (by simpa using hduty)
    have hbusyRun : (s.startRun all).status.busy = true ↔ (s.startRun all).seq.step ≠ .idle := by
      simp [State.startRun]
    exact keeps_next (inv_iff.2 ⟨⟨h.memWf, h.noFault, h.noIssue, hbusyRun, fun _ => hcovered, rfl⟩,
      .of_noCanvas (h.idle hb).2 nofun nofun nofun⟩)

/-- A CMD word decodes to a host command (R150). -/
theorem decodeCmdWord_ok {w : Word} {i : Instr} (h : decodeCmdWord w = .ok i) :
    i = .nop ∨ ∃ all, i = .convert all := by
  unfold decodeCmdWord at h
  simp only at h
  split_ifs at h
  · cases h; exact .inl rfl
  · cases h; exact .inr ⟨_, rfl⟩

/-- What a fetched operation answers. -/
def Fetched.answer : Fetched → Answer
  | .run i s => exec i s
  | .reply o => o

theorem step_eq_answer (s : State) : step s = (fetch s).answer := by
  unfold step
  cases fetch s <;> rfl

theorem Inv.hostWrite {s : State} (h : Inv s) (addr : Nat) (v : Word) : Keeps (hostWrite s addr v) := by
  unfold Machine.hostWrite writeInLen
  split_ifs with _ hbusy
  · exact keeps_next h
  · exact keeps_next (h.of_notBusy (by simpa using hbusy) h.memWf (by simpa using hbusy) rfl rfl rfl rfl)
  · exact keeps_refused _
  · exact keeps_next h

theorem Inv.fetchWrite {s : State} (h : Inv s) (addr size : Nat) (v : Word) :
    Keeps (fetchWrite s addr size v).answer := by
  unfold Machine.fetchWrite
  rw [decodeCmd_word]
  split_ifs
  · exact keeps_refused _
  · cases hw : decodeCmdWord v with
    | error e => exact keeps_next (h.hostSide s.host s.hostReads true)
    | ok i =>
      obtain rfl | ⟨all, rfl⟩ := decodeCmdWord_ok hw
      · exact keeps_next h
      · exact h.convert all
  · exact h.hostWrite addr v

theorem Inv.hostLoad {s : State} (h : Inv s) (bytes : List Byte) : Keeps (hostLoad s bytes) := by
  unfold Machine.hostLoad
  split_ifs with hbusy
  · exact keeps_refused _
  · exact keeps_next (h.of_notBusy (by simpa using hbusy) (Memory.wf_placeBytes bytes) (by simpa using hbusy) rfl rfl
      rfl rfl)
  · exact keeps_refused _

theorem Inv.hostRead {s : State} (h : Inv s) (addr size : Nat) : Keeps (hostRead s addr size) := by
  unfold Machine.hostRead
  split_ifs
  · exact keeps_next (h.hostSide s.host _ s.status.badCmd)
  · exact keeps_refused _

/-- Reset keeps only IN of what the invariant reads, and IN stays canonical (R431). -/
theorem Inv.hostReset {s : State} (h : Inv s) : Inv (hostReset s) :=
  inv_iff.2 ⟨⟨h.memWf, rfl, rfl, by simp [Machine.hostReset, State.reset], nofun, rfl⟩,
    .of_noCanvas rfl nofun nofun nofun⟩

theorem Inv.fetchEngine {s : State} (h : Inv s) : Keeps (fetchEngine s).answer := by
  cases hi : stepInstr s.seq.step with
  | some i =>
    rw [fetchEngine_run hi]
    exact fun t ht => h.exec_stepInstr hi ht
  | none =>
    simp only [Machine.fetchEngine, hi, h.noFault]
    exact keeps_next h

theorem Inv.fetchHost {s : State} (h : Inv s) (e : HostEvent) : Keeps (fetchHost e s).answer := by
  cases e with
  | pass => exact h.fetchEngine
  | write addr size v => exact h.fetchWrite addr size v
  | read addr size => exact h.hostRead addr size
  | loadIn bytes => exact h.hostLoad bytes
  | reset => exact keeps_next h.hostReset

/-! ### The obligation -/

/-- Settles O52: the issue latch is empty, so a step is the engine's turn or the host's next action, and each keeps the
invariant. -/
theorem stepKeepsTheInvariant : Obligations.StepKeepsTheInvariant := by
  intro s t h ht
  rw [step_eq_answer] at ht
  cases hhost : s.host with
  | nil =>
    rw [fetch_engine h.noIssue hhost] at ht
    exact h.fetchEngine t ht
  | cons e rest =>
    rw [fetch_host h.noIssue hhost] at ht
    exact (h.hostSide rest s.hostReads s.status.badCmd).fetchHost e t ht

end Sys2Proof.Machine
end

section
/-! PROOFS. The canvas writer (44_canvas.md R290 to R298): CANVAS_WRITE inside and outside the canvas, the flip, the
translation as a bijection, and which operations may change the canvas, HDR, OUT and RUN_ALL. -/

namespace Sys2Proof.Machine

/-! ### CANVAS_WRITE -/

/-- CANVAS_WRITE answers the store on a machine without a fault (R292). -/
theorem exec_canvasWrite {s : State} (x y : Nat) (v : Word) (hf : s.fault = none) :
    exec (.canvasWrite x y v) s = .next (s.canvasStore x y v) :=
  (whenLive_next_iff (f := fun s => s.canvasStore x y v)).2 ⟨hf, rfl⟩

/-- Without a canvas a canvas write only raises the fault (R293, notes/assumptions/16.md). -/
theorem State.canvasStore_noCanvas {s : State} (x y : Nat) (v : Word) (hc : s.canvas = none) :
    s.canvasStore x y v = s.raise .canvasBounds := by
  simp [State.canvasStore, hc]

/-- Every instruction but NOP is an operation of the engine (R53, R310). -/
theorem exec_eq_whenLive {i : Instr} (hi : i ≠ .nop) : ∃ k, ∀ s, exec i s = whenLive s k := by
  cases i with
  | nop => exact absurd rfl hi
  | _ => exact ⟨_, fun _ => rfl⟩

/-- A faulted machine has no operation but NOP (R53, R310). -/
theorem exec_faulted {s : State} {f : Fault} {i : Instr} (hf : s.fault = some f) (hi : i ≠ .nop) :
    exec i s = .fault f := by
  obtain ⟨k, hk⟩ := exec_eq_whenLive hi
  rw [hk, whenLive_faulted k hf]

/-- Settles O23: the store writes one cell, whose index is the formula of R291. -/
theorem canvasWriteStoresOneCell : Obligations.CanvasWriteStoresOneCell := by
  intro s c x y v hf hc hx hy
  have hstore := exec_canvasWrite x y v hf
  rw [State.canvasStore_inside v hc hx hy] at hstore
  exact ⟨_, hstore, rfl, rfl, lookupCell_storeCell_same _ _ _, fun i hi => lookupCell_storeCell_other _ _ hi⟩

/-- Settles O24: the store raises the fault and changes nothing else, and a faulted machine has only NOP. -/
theorem canvasWriteOutOfRangeFaults : Obligations.CanvasWriteOutOfRangeFaults := by
  intro s x y v hf hout
  have hstore : s.canvasStore x y v = s.raise .canvasBounds := by
    cases hc : s.canvas with
    | none => exact State.canvasStore_noCanvas x y v hc
    | some c => exact State.canvasStore_outside v hc (hout c hc)
  exact ⟨(exec_canvasWrite x y v hf).trans (congrArg _ hstore), fun i hi => exec_faulted rfl hi⟩

/-- Settles O25: R291 gives row 0 the index (H-1)*W + x and row H-1 the index x. -/
theorem canvasIsFlippedVertically : Obligations.CanvasIsFlippedVertically := by
  intro s c x v hf hc hx hh
  obtain ⟨c0, hfirst, -, -, hcell0, -⟩ := canvasWriteStoresOneCell s c x 0 v hf hc hx hh
  obtain ⟨c1, hlast, -, -, hcell1, -⟩ := canvasWriteStoresOneCell s c x (c.height - 1) v hf hc hx (by omega)
  rw [Nat.sub_self, Nat.zero_mul, Nat.zero_add] at hcell1
  exact ⟨⟨_, hfirst, hcell0⟩, ⟨_, hlast, hcell1⟩⟩

/-! ### The translation of R291 -/

/-- The coordinate of a storage index: its column is i mod W, and its stored row i div W is counted from the last row
(R291, R295). -/
theorem storageIndex_surj {c : Canvas} {i : Nat} (hi : i < c.width * c.height) :
    i % c.width < c.width ∧ c.height - 1 - i / c.width < c.height
      ∧ storageIndex c (i % c.width) (c.height - 1 - i / c.width) = i := by
  have hw : 0 < c.width := Nat.pos_of_mul_pos_right (Nat.zero_lt_of_lt hi)
  have hrow : i / c.width < c.height := Nat.div_lt_of_lt_mul hi
  have hflip : c.height - 1 - (c.height - 1 - i / c.width) = i / c.width :=
    Nat.sub_sub_self (Nat.le_sub_one_of_lt hrow)
  refine ⟨Nat.mod_lt i hw, by generalize i / c.width = r at hrow ⊢; omega, ?_⟩
  rw [storageIndex, hflip]
  exact Nat.div_add_mod' i c.width

/-- Settles O26: every index below W*H has its coordinate, and the translation is injective. -/
theorem canvasTranslationIsABijection : Obligations.CanvasTranslationIsABijection := by
  intro c
  refine ⟨fun x y => storageIndex_lt, fun i hi => ?_⟩
  obtain ⟨hx, hy, hindex⟩ := storageIndex_surj hi
  exact ⟨_, _, ⟨hx, hy, hindex⟩, fun x' y' hx' hy' h => storageIndex_inj hx' hy' hx hy (h.trans hindex.symm)⟩

/-! ### What each operation keeps of HDR, OUT, RUN_ALL and the canvas -/

/-- `t` has the HDR, OUT and RUN_ALL of `s`. -/
def recordsKept (s t : State) : Prop := t.hdr = s.hdr ∧ t.out = s.out ∧ t.runAll = s.runAll

theorem decoderFrame_records {s t : State} (h : decoderFrame s t) : recordsKept s t := by
  rw [h]
  exact ⟨rfl, rfl, rfl⟩

theorem setupStep_records (s : State) : recordsKept s s.setupStep := by
  rcases setupStep_cases s with h | ⟨-, ⟨c, h⟩ | ⟨-, h⟩⟩ <;> rw [h]
  · exact ⟨rfl, rfl, rfl⟩
  · exact ⟨by simp, by simp, by simp⟩
  · exact ⟨rfl, rfl, rfl⟩

theorem decodeStep_records (s : State) : recordsKept s s.decodeStep := by
  have hblock := decoderFrame_records (decodeBlock_frame s.lvl.variant (blockAddr s.lvl s.seq.block)
    (blockX s.lvl s.seq.block) (blockY s.lvl s.seq.block) s)
  unfold State.decodeStep
  split
  · exact ⟨rfl, rfl, rfl⟩
  · unfold State.andThen
    split <;> exact hblock

theorem nextLevelStep_records (s : State) : recordsKept s s.nextLevelStep := by
  unfold State.nextLevelStep
  split <;> exact ⟨rfl, rfl, rfl⟩

theorem nextLevelStep_canvas (s : State) : s.nextLevelStep.canvas = none := by
  unfold State.nextLevelStep
  split <;> rfl

/-- PARSE writes neither OUT nor RUN_ALL nor the canvas. -/
theorem parseStep_keeps (s : State) :
    s.parseStep.out = s.out ∧ s.parseStep.runAll = s.runAll ∧ s.parseStep.canvas = s.canvas := by
  rcases parseStep_cases s with ⟨bs, -, -, h⟩ | ⟨c, h⟩ | h <;> rw [h] <;> exact ⟨rfl, rfl, rfl⟩

/-- EMIT writes neither HDR nor RUN_ALL. -/
theorem emitStep_keeps (s : State) : s.emitStep.hdr = s.hdr ∧ s.emitStep.runAll = s.runAll := by
  rcases emitStep_cases s with h | h <;> rw [h] <;> simp [State.acceptImage, State.useAnswer]

/-- EMIT keeps the canvas of an image put out and discards it in its error entry (R298, R383). -/
theorem emitStep_canvas (s : State) :
    s.emitStep.canvas = s.canvas ∨ s.emitStep.canvas = none ∧ s.emitStep.seq.step = .nextLevel := by
  rcases emitStep_cases s with h | h <;> rw [h]
  · exact .inl (by simp [State.acceptImage, State.useAnswer])
  · exact .inr ⟨rfl, rfl⟩

/-- SETUP keeps the canvas, discards it in its error entry, or makes a blank one (R298, R313). -/
theorem setupStep_canvas (s : State) :
    s.setupStep.canvas = s.canvas ∨ s.setupStep.canvas = none ∧ s.setupStep.seq.step = .nextLevel
      ∨ ∃ w h, s.setupStep.canvas = some ⟨w, h, []⟩ := by
  rcases setupStep_cases s with h | ⟨-, ⟨c, h⟩ | ⟨-, h⟩⟩ <;> rw [h]
  · exact .inl rfl
  · exact .inr (.inl ⟨rfl, rfl⟩)
  · exact .inr (.inr ⟨_, _, rfl⟩)

/-- CONVERT writes no canvas (R310). -/
theorem exec_convert_canvas {all : Bool} {s t : State} (h : exec (.convert all) s = .next t) :
    t.canvas = s.canvas := by
  rw [exec, execConvert, whenLive_eq_next] at h
  obtain ⟨-, h⟩ := h
  split_ifs at h <;> cases h <;> rfl

/-- A decoder operation runs its variant's decoder (R152, R200). -/
theorem exec_decoderInstr (v : Variant) (a ox oy : Nat) (s : State) :
    exec (decoderInstr v a ox oy) s = whenLive s fun s => .next (decodeBlock v a ox oy s) := by
  cases v <;> rfl

theorem exec_decoderInstr_records {v : Variant} {a ox oy : Nat} {s t : State}
    (h : exec (decoderInstr v a ox oy) s = .next t) : recordsKept s t := by
  rw [exec_decoderInstr] at h
  obtain ⟨-, rfl⟩ := whenLive_next_iff.1 h
  exact decoderFrame_records (decodeBlock_frame v a ox oy s)

/-- Settles O50: each operation keeps what its own lemma above says, and where it writes it is one of those named. -/
theorem whoWritesHdrOutRunAllAndCanvas : Obligations.WhoWritesHdrOutRunAllAndCanvas := by
  intro i s t h
  by_cases hdecoder : ∃ a ox oy v, i = decoderInstr v a ox oy
  · obtain ⟨a, ox, oy, v, rfl⟩ := hdecoder
    obtain ⟨hhdr, hout, hrunAll⟩ := exec_decoderInstr_records h
    exact ⟨.inl hhdr, .inl hout, .inl hrunAll, .inr (.inr (.inr (.inr (.inl ⟨a, ox, oy, v, rfl⟩))))⟩
  cases i with
  | nop =>
    cases h
    exact ⟨.inl rfl, .inl rfl, .inl rfl, .inl rfl⟩
  | convert all =>
    exact ⟨.inr (.inr ⟨all, rfl⟩), .inr (.inr ⟨all, rfl⟩), .inr ⟨all, rfl⟩, .inl (exec_convert_canvas h)⟩
  | parse =>
    obtain ⟨-, rfl⟩ := whenLive_next_iff.1 h
    obtain ⟨hout, hrunAll, hcanvas⟩ := parseStep_keeps s
    exact ⟨.inr (.inl rfl), .inl hout, .inl hrunAll, .inl hcanvas⟩
  | setup =>
    obtain ⟨-, rfl⟩ := whenLive_next_iff.1 h
    obtain ⟨hhdr, hout, hrunAll⟩ := setupStep_records s
    refine ⟨.inl hhdr, .inl hout, .inl hrunAll, ?_⟩
    rcases setupStep_canvas s with hkept | ⟨hnone, hnext⟩ | hblank
    · exact .inl hkept
    · exact .inr (.inl ⟨hnone, .inr ⟨.inl rfl, hnext⟩⟩)
    · exact .inr (.inr (.inl ⟨rfl, hblank⟩))
  | decode =>
    obtain ⟨-, rfl⟩ := whenLive_next_iff.1 h
    obtain ⟨hhdr, hout, hrunAll⟩ := decodeStep_records s
    exact ⟨.inl hhdr, .inl hout, .inl hrunAll, .inr (.inr (.inr (.inl rfl)))⟩
  | decodeBc1 a ox oy => exact absurd ⟨a, ox, oy, .bc1, rfl⟩ hdecoder
  | decodeBc2 a ox oy => exact absurd ⟨a, ox, oy, .bc2, rfl⟩ hdecoder
  | decodeBc3 a ox oy => exact absurd ⟨a, ox, oy, .bc3, rfl⟩ hdecoder
  | canvasWrite x y v =>
    obtain ⟨-, rfl⟩ := (whenLive_next_iff (f := fun s => s.canvasStore x y v)).1 h
    obtain ⟨hhdr, hout, hrunAll⟩ := decoderFrame_records (decoderFrame_canvasStore s x y v)
    exact ⟨.inl hhdr, .inl hout, .inl hrunAll, .inr (.inr (.inr (.inr (.inr ⟨x, y, v, rfl⟩))))⟩
  | emit =>
    obtain ⟨-, rfl⟩ := whenLive_next_iff.1 h
    obtain ⟨hhdr, hrunAll⟩ := emitStep_keeps s
    refine ⟨.inl hhdr, .inr (.inl rfl), .inl hrunAll, ?_⟩
    rcases emitStep_canvas s with hkept | ⟨hnone, hnext⟩
    · exact .inl hkept
    · exact .inr (.inl ⟨hnone, .inr ⟨.inr rfl, hnext⟩⟩)
  | nextLevel =>
    obtain ⟨-, rfl⟩ := whenLive_next_iff.1 h
    obtain ⟨hhdr, hout, hrunAll⟩ := nextLevelStep_records s
    exact ⟨.inl hhdr, .inl hout, .inl hrunAll, .inr (.inl ⟨nextLevelStep_canvas s, .inl rfl⟩)⟩
  | endRun =>
    obtain ⟨-, rfl⟩ := (whenLive_next_iff (f := State.endStep)).1 h
    exact ⟨.inl rfl, .inl rfl, .inl rfl, .inl rfl⟩

end Sys2Proof.Machine
end

section
/-! PROOFS. A tile that leaves the canvas (44_canvas.md R293 with R210, R245, R265): the state in which a block's pixels
are resolved, whatever the canvas; the cells a part of a tile inside the canvas leaves; and where the decoder stops. -/

namespace Sys2Proof.Machine

open Sys2Proof.Claims

/-! ### The operands of a block that can be read -/

/-- A part of a range of IN that can be read can be read by itself (R15). -/
theorem inRead_part {s : State} {a n : Nat} {bs : List Byte} (h : inReadBytes s a n = some bs) (o k : Nat)
    (hk : o + k ≤ n) : ∃ v, inRead s (a + o) k = some v := by
  obtain ⟨hlen, hbytes⟩ := inReadBytes_eq_some.1 h
  exact ⟨_, congrArg (Option.map leNat) (inReadBytes_eq_some.2 ⟨by omega, memBytes_part hbytes hk⟩)⟩

/-! ### The state in which the pixels of a block are resolved -/

/-- With the operands of a block loaded and its palette made, `u` is the state in which the pixels are resolved to the
words `val`, on whatever canvas they are stored (R201). -/
structure BlockPrepared (v : Variant) (a : Nat) (s u : State) (alpha : AlphaRule) (val : Fin 16 → Word) : Prop where
  fault : u.fault = none
  seq : u.seq = s.seq
  block : ∀ (k : Option Canvas) (ox oy : Nat),
    decodeBlock v a ox oy { s with canvas := k } = storePixels alpha ox oy { u with canvas := k }
  pixel : ∀ (ox oy : Nat) (p : Fin 16) (w : State), w.dp = u.dp → w.pal = u.pal → w.aramp = u.aramp →
    w.flags = u.flags → storePixel alpha ox oy p w = w.canvasStore (ox + p.val % 4) (oy + p.val / 4) (val p)

/-- The state in which the pixels of a BC1 block are resolved: the colours loaded, MODE4 and the palette it selects
(R202 to R205). -/
def bc1Prepared (s : State) (n0 n1 n2 : Nat) : State := bc1Palette (((s.setC0 n0).setC1 n1).setCsel n2)

/-- The three decoders of a block that can be read store its pixels on that state (R210, R245, R265). -/
theorem bc1Block_eq_storePixels {s : State} {a n0 n1 n2 : Nat} (hf : s.fault = none) (h0 : inRead s a 2 = some n0)
    (h1 : inRead s (a + 2) 2 = some n1) (h2 : inRead s (a + 4) 4 = some n2) (ox oy : Nat) :
    bc1Block a ox oy s = storePixels bc1Alpha ox oy (bc1Prepared s n0 n1 n2) := by
  rw [bc1Block, loadColours_some hf h0 h1 h2, State.andThen_live (s := ((s.setC0 n0).setC1 n1).setCsel n2) _ hf,
    ← bc1Prepared, State.andThen_live (s := bc1Prepared s n0 n1 n2) _ hf]

theorem bc2Block_eq_storePixels {s : State} {a nf n0 n1 n2 : Nat} (hf : s.fault = none) (h : inRead s a 8 = some nf)
    (h0 : inRead s (a + 8) 2 = some n0) (h1 : inRead s (a + 10) 2 = some n1) (h2 : inRead s (a + 12) 4 = some n2)
    (ox oy : Nat) : bc2Block a ox oy s = storePixels bc2Alpha ox oy (bc2Prepared s nf n0 n1 n2) := by
  rw [bc2Block, loadAlphaBlock_some hf h h0 h1 h2,
    State.andThen_live (s := (((s.setAfield nf).setC0 n0).setC1 n1).setCsel n2) _ hf,
    fourColourPalette_eq_bc2Prepared, State.andThen_live (s := bc2Prepared s nf n0 n1 n2) _ hf]

theorem bc3Block_eq_storePixels {s : State} {a nf n0 n1 n2 : Nat} (hf : s.fault = none) (h : inRead s a 8 = some nf)
    (h0 : inRead s (a + 8) 2 = some n0) (h1 : inRead s (a + 10) 2 = some n1) (h2 : inRead s (a + 12) 4 = some n2)
    (ox oy : Nat) : bc3Block a ox oy s = storePixels bc3Alpha ox oy (bc3Prepared s nf n0 n1 n2) := by
  have hpalette : (fourColourPalette ((((s.setAfield nf).setC0 n0).setC1 n1).setCsel n2)).fault = none :=
    (fourColourPalette_frame rfl rfl).1.trans hf
  rw [bc3Block, loadAlphaBlock_some hf h h0 h1 h2,
    State.andThen_live (s := (((s.setAfield nf).setC0 n0).setC1 n1).setCsel n2) _ hf,
    State.andThen_live _ hpalette, bc3AlphaRamp_eq_bc3Prepared,
    State.andThen_live (s := bc3Prepared s nf n0 n1 n2) _ hf]

theorem blockPrepared_bc1 {s : State} {a n0 n1 n2 : Nat} (hf : s.fault = none) (h0 : inRead s a 2 = some n0)
    (h1 : inRead s (a + 2) 2 = some n1) (h2 : inRead s (a + 4) 4 = some n2) :
    BlockPrepared .bc1 a s (bc1Prepared s n0 n1 n2) bc1Alpha
      (bc1Value (bc1Prepared s n0 n1 n2) (BitVec.ofNat 32 n2)) where
  fault := hf
  seq := rfl
  block k := bc1Block_eq_storePixels (s := { s with canvas := k }) hf h0 h1 h2
  pixel ox oy p _ hdp hpal _ hflags := storePixel_bc1 rfl p ox oy hdp hpal hflags

theorem blockPrepared_bc2 {s : State} {a nf n0 n1 n2 : Nat} (hf : s.fault = none) (h : inRead s a 8 = some nf)
    (h0 : inRead s (a + 8) 2 = some n0) (h1 : inRead s (a + 10) 2 = some n1) (h2 : inRead s (a + 12) 4 = some n2) :
    BlockPrepared .bc2 a s (bc2Prepared s nf n0 n1 n2) bc2Alpha
      (bc2Value (bc2Prepared s nf n0 n1 n2) (BitVec.ofNat 32 n2) (BitVec.ofNat 64 nf)) where
  fault := hf
  seq := rfl
  block k := bc2Block_eq_storePixels (s := { s with canvas := k }) hf h h0 h1 h2
  pixel ox oy p _ hdp hpal _ _ := storePixel_bc2 rfl rfl p ox oy hdp hpal

theorem blockPrepared_bc3 {s : State} {a nf n0 n1 n2 : Nat} (hf : s.fault = none) (h : inRead s a 8 = some nf)
    (h0 : inRead s (a + 8) 2 = some n0) (h1 : inRead s (a + 10) 2 = some n1) (h2 : inRead s (a + 12) 4 = some n2) :
    BlockPrepared .bc3 a s (bc3Prepared s nf n0 n1 n2) bc3Alpha
      (bc3Value (bc3Prepared s nf n0 n1 n2) (BitVec.ofNat 32 n2) (BitVec.ofNat 64 nf)) where
  fault := hf
  seq := rfl
  block k := bc3Block_eq_storePixels (s := { s with canvas := k }) hf h h0 h1 h2
  pixel ox oy p _ hdp hpal haramp _ := storePixel_bc3 rfl rfl p ox oy hdp hpal haramp

/-- Every decoder of a block that can be read has such a state. -/
theorem exists_blockPrepared (v : Variant) {s : State} {a : Nat} (hf : s.fault = none)
    (hb : (inReadBytes s a (blockSize v)).isSome = true) : ∃ u alpha val, BlockPrepared v a s u alpha val := by
  obtain ⟨bs, hbs⟩ := Option.isSome_iff_exists.1 hb
  have hpart := inRead_part hbs
  cases v with
  | bc1 =>
    obtain ⟨n0, h0⟩ := hpart 0 2 (by decide)
    obtain ⟨n1, h1⟩ := hpart 2 2 (by decide)
    obtain ⟨n2, h2⟩ := hpart 4 4 (by decide)
    exact ⟨_, _, _, blockPrepared_bc1 hf h0 h1 h2⟩
  | bc2 =>
    obtain ⟨nf, h⟩ := hpart 0 8 (by decide)
    obtain ⟨n0, h0⟩ := hpart 8 2 (by decide)
    obtain ⟨n1, h1⟩ := hpart 10 2 (by decide)
    obtain ⟨n2, h2⟩ := hpart 12 4 (by decide)
    exact ⟨_, _, _, blockPrepared_bc2 hf h h0 h1 h2⟩
  | bc3 =>
    obtain ⟨nf, h⟩ := hpart 0 8 (by decide)
    obtain ⟨n0, h0⟩ := hpart 8 2 (by decide)
    obtain ⟨n1, h1⟩ := hpart 10 2 (by decide)
    obtain ⟨n2, h2⟩ := hpart 12 4 (by decide)
    exact ⟨_, _, _, blockPrepared_bc3 hf h h0 h1 h2⟩

/-! ### The cells of a part of a tile -/

/-- A cell of none of the stored pixels keeps its value. -/
theorem lookupCell_tileCells_of_forall_ne {c : Canvas} {ox oy i : Nat} (val : Fin 16 → Word) {ps : List (Fin 16)}
    (h : ∀ q ∈ ps, i ≠ tileIndex c ox oy q) (m : Cells) :
    lookupCell (tileCells c ox oy val ps m) i = lookupCell m i := by
  induction ps generalizing m with
  | nil => rfl
  | cons p ps ih =>
    rw [tileCells, ih fun q hq => h q (List.mem_cons_of_mem _ hq),
      lookupCell_storeCell_other m (val p) (h p List.mem_cons_self)]

/-- Distinct pixels inside the canvas have distinct cells, wherever the rest of the tile lies (R207). -/
theorem tileIndex_inj_of_inside {c : Canvas} {ox oy : Nat} {p q : Fin 16}
    (hp : ox + p.val % 4 < c.width ∧ oy + p.val / 4 < c.height)
    (hq : ox + q.val % 4 < c.width ∧ oy + q.val / 4 < c.height)
    (h : tileIndex c ox oy p = tileIndex c ox oy q) : p = q := by
  obtain ⟨hx, hy⟩ := storageIndex_inj hp.1 hp.2 hq.1 hq.2 h
  exact Fin.ext (by omega)

/-- A stored pixel's cell holds its word, where the stored pixels lie inside the canvas. -/
theorem lookupCell_tileCells_of_inside {c : Canvas} {ox oy : Nat} (val : Fin 16 → Word) {ps : List (Fin 16)}
    (hin : ∀ q ∈ ps, ox + q.val % 4 < c.width ∧ oy + q.val / 4 < c.height) {p : Fin 16} (hp : p ∈ ps) (m : Cells) :
    lookupCell (tileCells c ox oy val ps m) (tileIndex c ox oy p) = some (val p) := by
  induction ps generalizing m with
  | nil => cases hp
  | cons q ps ih =>
    have hin' : ∀ r ∈ ps, _ := fun r hr => hin r (List.mem_cons_of_mem _ hr)
    rw [tileCells]
    by_cases hps : p ∈ ps
    · exact ih hin' hps _
    · obtain rfl : p = q := (List.mem_cons.1 hp).resolve_right hps
      have hne : ∀ r ∈ ps, tileIndex c ox oy p ≠ tileIndex c ox oy r := fun r hr he =>
        hps (tileIndex_inj_of_inside (hin p hp) (hin' r hr) he ▸ hr)
      rw [lookupCell_tileCells_of_forall_ne val hne, lookupCell_storeCell_same]

/-! ### Where the decoder stops -/

/-- Without a canvas the first pixel raises the fault (R293, notes/assumptions/16.md). -/
theorem storePixels_noCanvas {alpha : AlphaRule} {val : Fin 16 → Word} {ox oy : Nat} {s : State}
    (hc : s.canvas = none)
    (hval : ∀ (p : Fin 16) (u : State), u.dp = s.dp → u.pal = s.pal → u.aramp = s.aramp → u.flags = s.flags →
      storePixel alpha ox oy p u = u.canvasStore (ox + p.val % 4) (oy + p.val / 4) (val p)) :
    storePixels alpha ox oy s = (s.setPix 0).raise .canvasBounds := by
  rw [storePixels, allPixels, pixelLoop, hval 0 (s.setPix 0) rfl rfl rfl rfl,
    State.canvasStore_noCanvas (s := s.setPix 0) _ _ _ hc]
  rfl

/-- Settles O60: the pixels of a block are resolved in one state whatever the canvas, and the pixel loop stores them up
to the first one outside. -/
theorem tileOutsideTheCanvasFaults : Obligations.TileOutsideTheCanvasFaults := by
  intro v s a ox oy hf hb big
  obtain ⟨u, alpha, val, hu⟩ := exists_blockPrepared v hf hb
  have hexec (k : Option Canvas) : exec (decoderInstr v a ox oy) { s with canvas := k }
      = .next (storePixels alpha ox oy { u with canvas := k }) := by
    rw [exec_decoderInstr, whenLive_live (s := { s with canvas := k }) _ hf, hu.block]
  have hx : ox + 3 < big.width := Nat.lt_succ_self _
  have hy : oy + 3 < big.height := Nat.lt_succ_self _
  have hbig := storePixels_tile (s := { u with canvas := some big }) hu.fault rfl hx hy (hu.pixel ox oy)
  refine ⟨_, (hexec (some big)).trans (congrArg _ hbig), hu.fault, fun hnone => ?_, fun c hc hout => ?_⟩
  · have hs : { s with canvas := none } = s := by rw [← hnone]
    have hstop := storePixels_noCanvas (s := { u with canvas := none }) rfl (hu.pixel ox oy)
    rw [← hs, hexec none, hstop, ← hu.seq]
    rfl
  · have hs : { s with canvas := some c } = s := by rw [← hc]
    obtain ⟨p, pre, hp, hmem, hbefore, hstop⟩ :=
      storePixels_leaves (s := { u with canvas := some c }) hu.fault rfl hout (hu.pixel ox oy)
    have hpre : ∀ q ∈ pre, ox + q.val % 4 < c.width ∧ oy + q.val / 4 < c.height :=
      fun q hq => hbefore q ((hmem q).1 hq)
    refine ⟨p, { c with cells := tileCells c ox oy val pre c.cells }, ?_, hp, hbefore, rfl, rfl, fun q hq => ?_,
      fun i hi => ?_⟩
    · rw [← hs, hexec (some c), hstop, ← hu.seq]
    · rw [canvasCell_tileCells rfl hx hy]
      exact lookupCell_tileCells_of_inside val hpre ((hmem q).2 hq) c.cells
    · exact lookupCell_tileCells_of_forall_ne val (fun q hq => hi q ((hmem q).1 hq)) c.cells

end Sys2Proof.Machine
end

section
/-! PROOFS. The orchestrator (45_orchestrator.md R311, R322 to R324): what a CMD write with OP 0 runs, where the blocks
of a level that passed its checks lie, and the steps NEXT and END. -/

namespace Sys2Proof.Machine

/-! ### A command from the host -/

/-- A CMD write whose word decodes runs that instruction, with the host's script moved on (R150). -/
theorem step_cmdWrite {s : State} {w : Word} {i : Instr} {rest : List HostEvent} (hissue : s.issue = none)
    (hhost : s.host = .write 0x000 4 w :: rest) (hi : decodeCmdWord w = .ok i) :
    step s = exec i { s with host := rest } := by
  have hlegal : legalAccess 0x000 4 = true := by decide
  have hrun : fetchWrite { s with host := rest } 0x000 4 w = .run i { s with host := rest } := by
    simp [fetchWrite, hlegal, decodeCmd_word, hi]
  rw [step_eq_answer, fetch_host hissue hhost, fetchHost, hrun, Fetched.answer]

/-- OP is the low four bits of the CMD word, and OP 0 is NOP (R34, R311). -/
theorem decodeCmdWord_of_op_zero {w : Word} (h : w.toNat % 16 = 0) : decodeCmdWord w = .ok .nop := by
  have hop : w.extractLsb' 0 4 = 0 := BitVec.eq_of_toNat_eq (by simpa [BitVec.extractLsb'_toNat] using h)
  simp [decodeCmdWord, hop]

/-! ### The blocks of a level that passed its checks -/

/-- The tile of a block lies among the whole 4 × 4 tiles of the level (R320). -/
theorem blockXY_le_grid {l : Lvl} {k : Nat} (hk : k < l.nbx * l.nby) :
    blockX l k + 3 ≤ 4 * l.nbx - 1 ∧ blockY l k + 3 ≤ 4 * l.nby - 1 := by
  have hcol : k % l.nbx < l.nbx := Nat.mod_lt k (Nat.pos_of_mul_pos_right (Nat.zero_lt_of_lt hk))
  have hrow : k / l.nbx < l.nby := Nat.div_lt_of_lt_mul hk
  unfold blockX blockY
  omega

/-- The bytes of a block lie among those of the level's blocks (R321). -/
theorem blockAddr_add_bs_le {l : Lvl} {k : Nat} (hk : k < l.nbx * l.nby) :
    blockAddr l k + l.bs ≤ l.sliceBase + l.nbx * l.nby * l.bs := by
  have hblocks : (k + 1) * l.bs ≤ l.nbx * l.nby * l.bs := Nat.mul_le_mul_right _ hk
  rw [Nat.succ_mul] at hblocks
  unfold blockAddr
  omega

/-- DECODE of a block whose decoder sets no fault runs the decoder and goes on to the next block (R319). -/
theorem exec_decode_block {s t : State} (hf : s.fault = none) (hk : s.seq.block ≠ s.lvl.nbx * s.lvl.nby)
    (ht : decodeBlock s.lvl.variant (blockAddr s.lvl s.seq.block) (blockX s.lvl s.seq.block)
      (blockY s.lvl s.seq.block) s = t) (htf : t.fault = none) : exec .decode s = .next t.nextBlock := by
  refine whenLive_next_iff.2 ⟨hf, ?_⟩
  rw [State.decodeStep, if_neg hk, ht, State.andThen_live _ htf]

/-- The decoder of a block of a level that passed its checks sets no fault and leaves the sequencer with PIX 0, whatever
the canvas holds (R322). -/
theorem LevelReady.decodeBlock_noFault {s : State} (h : LevelReady s) (hf : s.fault = none) (hin : inCovered s)
    {k : Nat} (hk : k < s.lvl.nbx * s.lvl.nby) {t : State}
    (ht : Machine.decodeBlock s.lvl.variant (blockAddr s.lvl k) (blockX s.lvl k) (blockY s.lvl k) s = t) :
    t.fault = none ∧ t.seq = { s.seq with pix := 0 } := by
  obtain ⟨c, hc, hw, hh⟩ := h.canvas
  obtain ⟨hx, hy⟩ := blockXY_inside h.nbx h.nby hk
  rw [← hw] at hx
  rw [← hh] at hy
  obtain ⟨-, hfault, -, hseq⟩ := decodeBlock_tile s.lvl.variant hf hc hx hy (h.blockAddr_le hk) hin
  exact ht ▸ ⟨hfault, hseq⟩

/-! ### The obligations -/

/-- Settles O32: the slice and payload checks bound every block, NBX and NBY are the whole tiles of the canvas, and the
decoder of a block so bounded sets no fault. -/
theorem decodeOfACheckedLevelNeverFaults : Obligations.DecodeOfACheckedLevelNeverFaults := by
  intro s hf hready hin hblock
  refine ⟨fun k hk => ?_, ?_⟩
  · obtain ⟨hcol, hrow⟩ := blockXY_le_grid hk
    have hgridX : 4 * s.lvl.nbx - 1 ≤ s.lvl.curW - 1 := by have := hready.nbx; omega
    have hgridY : 4 * s.lvl.nby - 1 ≤ s.lvl.curH - 1 := by have := hready.nby; omega
    exact ⟨blockAddr_add_bs_le hk, Nat.add_le_add_left hready.payload _, hready.slice, hcol, hgridX, hrow, hgridY⟩
  · obtain ⟨hfault, hseq⟩ := hready.decodeBlock_noFault hf hin hblock rfl
    refine ⟨_, exec_decode_block hf (Nat.ne_of_lt hblock) rfl hfault, hfault, ?_⟩
    rw [State.nextBlock, hseq]

/-- Settles O8: NOP answers its state, and a CMD word with OP 0 decodes to NOP. -/
theorem nopHasNoEffect : Obligations.NopHasNoEffect := by
  have hnop (s : State) : exec .nop s = .next s := rfl
  refine ⟨hnop, fun s w rest hissue hhost hop => ?_⟩
  rw [step_cmdWrite hissue hhost (decodeCmdWord_of_op_zero hop), hnop]

/-- Settles O33: RUN_ALL picks the branch of NEXT, and below 16 the next LEVEL is LEVEL + 1. -/
theorem nextGoesOnOrEnds : Obligations.NextGoesOnOrEnds := by
  refine fun s hf => ⟨fun hone => ?_, fun hall hlevel => ?_⟩
  · refine whenLive_next_iff.2 ⟨hf, ?_⟩
    simp [State.nextLevelStep, State.discardCanvas, State.goto, hone]
  · refine whenLive_next_iff.2 ⟨hf, ?_⟩
    simp [State.nextLevelStep, State.discardCanvas, levelSucc, hall, hlevel]

/-- Settles O34: END is the update of R324 on a machine without a fault. -/
theorem endSetsDone : Obligations.EndSetsDone :=
  fun _ hf => whenLive_next_iff.2 ⟨hf, rfl⟩

end Sys2Proof.Machine
end

section
/-! PROOFS. The BMP serializer (46_bmp_encoder.md R350 to R358): the file as a list of little-endian fields, the two
outcomes of EMIT, and the file of the red block. -/

namespace Sys2Proof.Machine

open Sys2Proof.Claims

/-! ### A file of little-endian fields -/

/-- The bytes of consecutive little-endian fields, each given by its width and its value (R85). -/
def fieldBytes (fs : List (Nat × Nat)) : List Byte := fs.flatMap fun f => leBytes f.1 f.2

/-- The fields fill the sum of their widths. -/
theorem length_fieldBytes (fs : List (Nat × Nat)) : (fieldBytes fs).length = (fs.map Prod.fst).sum := by
  simp [fieldBytes, List.length_flatMap]

theorem fieldBytes_cons (f : Nat × Nat) (fs : List (Nat × Nat)) :
    fieldBytes (f :: fs) = leBytes f.1 f.2 ++ fieldBytes fs := rfl

theorem fieldBytes_append (fs gs : List (Nat × Nat)) : fieldBytes (fs ++ gs) = fieldBytes fs ++ fieldBytes gs :=
  List.flatMap_append

/-- Field `k`, read after the widths of the fields before it, has its value, as far as its width reaches. -/
theorem leNat_fieldBytes {fs : List (Nat × Nat)} {k n v : Nat} (h : fs[k]? = some (n, v)) :
    leNat (((fieldBytes fs).drop ((fs.take k).map Prod.fst).sum).take n) = v % 256 ^ n := by
  induction fs generalizing k with
  | nil => simp at h
  | cons f fs ih =>
    cases k with
    | zero =>
      obtain rfl : f = (n, v) := by simpa using h
      rw [List.take_zero, List.map_nil, List.sum_nil, List.drop_zero, fieldBytes_cons,
        List.take_left' (length_leBytes n v), leNat_leBytes]
    | succ k =>
      rw [List.take_succ_cons, List.map_cons, List.sum_cons, fieldBytes_cons, ← List.drop_drop,
        List.drop_left' (length_leBytes f.1 f.2)]
      exact ih (by simpa using h)

/-! ### The BMP file as fields -/

/-- The fields of the file header and the DIB header in the order of R140 (R351, R352). -/
def headerFields (p : Params) (w h : Nat) : List (Nat × Nat) :=
  [(2, 0x4D42), (4, 122 + 4 * w * h), (2, 0), (2, 0), (4, 122),
    (4, 108), (4, w), (4, h), (2, 1), (2, 32), (4, 3), (4, 4 * w * h), (4, signedField p.bmpXppm),
    (4, signedField p.bmpYppm), (4, 0), (4, 0), (4, 0x0000F800), (4, 0x000007E0), (4, 0x0000001F), (4, 0x00FF0000),
    (4, p.bmpCsType), (36, 0), (12, 0)]

/-- The widths of the header's fields, whatever their values. -/
def headerWidths : List Nat := [2, 4, 2, 2, 4, 4, 4, 4, 2, 2, 4, 4, 4, 4, 4, 4, 4, 4, 4, 4, 4, 36, 12]

theorem map_fst_headerFields (p : Params) (w h : Nat) : (headerFields p w h).map Prod.fst = headerWidths := rfl

theorem sum_headerWidths : headerWidths.sum = 122 := by decide

theorem fieldBytes_headerFields (p : Params) (w h : Nat) :
    fieldBytes (headerFields p w h) = fileHeader w h ++ dibHeader p w h := by
  simp [fieldBytes, headerFields, fileHeader, dibHeader]

/-- One field per cell of the canvas, in storage order (R355). -/
def State.pixelFields (s : State) : List (Nat × Nat) :=
  (List.range (s.lvl.curW * s.lvl.curH)).map fun i => (4, (s.emitCell i).toNat)

theorem fieldBytes_pixelFields (s : State) : fieldBytes s.pixelFields = s.pixelArray := by
  rw [fieldBytes, State.pixelFields, List.flatMap_map]
  rfl

/-- The fields of the whole file. -/
def State.bmpFields (s : State) : List (Nat × Nat) := headerFields s.params s.lvl.curW s.lvl.curH ++ s.pixelFields

/-- The BMP file is its fields' bytes (R350). -/
theorem fieldBytes_bmpFields (s : State) : fieldBytes s.bmpFields = s.bmpFile := by
  rw [State.bmpFields, fieldBytes_append, fieldBytes_headerFields, fieldBytes_pixelFields]
  rfl

/-- A field of the header, whose value fits its width, read at its offset. -/
theorem leNat_bmpFile_header {s : State} (k : Nat) {o n v : Nat}
    (hk : (headerFields s.params s.lvl.curW s.lvl.curH)[k]? = some (n, v)) (ho : (headerWidths.take k).sum = o)
    (hv : v < 256 ^ n := by decide) : leNat ((s.bmpFile.drop o).take n) = v := by
  obtain ⟨hlt, -⟩ := List.getElem?_eq_some_iff.1 hk
  have hfield : s.bmpFields[k]? = some (n, v) := (List.getElem?_append_left hlt).trans hk
  have hoffset : (s.bmpFields.take k).map Prod.fst = headerWidths.take k := by
    rw [State.bmpFields, List.take_append_of_le_length hlt.le, List.map_take, map_fst_headerFields]
  rw [← ho, ← hoffset, ← fieldBytes_bmpFields, leNat_fieldBytes hfield, Nat.mod_eq_of_lt hv]

/-- The word of the file at cell `i`'s place is the value EMIT reads from the cell (R355). -/
theorem leNat_bmpFile_cell (s : State) {i : Nat} (hi : i < s.lvl.curW * s.lvl.curH) :
    leNat ((s.bmpFile.drop (122 + 4 * i)).take 4) = (s.emitCell i).toNat := by
  have hfield : s.bmpFields[(headerFields s.params s.lvl.curW s.lvl.curH).length + i]?
      = some (4, (s.emitCell i).toNat) := by
    rw [State.bmpFields, List.getElem?_append_right (Nat.le_add_right _ _), Nat.add_sub_cancel_left]
    simp [State.pixelFields, hi]
  have hoffset : ((s.bmpFields.take ((headerFields s.params s.lvl.curW s.lvl.curH).length + i)).map Prod.fst).sum
      = 122 + 4 * i := by
    rw [State.bmpFields, List.take_length_add_append, List.map_append, List.sum_append, map_fst_headerFields,
      sum_headerWidths]
    simp [State.pixelFields, Function.comp_def, ← List.map_take, List.take_range, Nat.min_eq_left hi.le, Nat.mul_comm]
  rw [← hoffset, ← fieldBytes_bmpFields, leNat_fieldBytes hfield]
  exact Nat.mod_eq_of_lt (s.emitCell i).isLt

/-- The pixel array follows the 122 bytes of the headers (R351). -/
theorem bmpFile_drop_header (s : State) : s.bmpFile.drop 122 = s.pixelArray :=
  List.drop_left' (by rw [← fieldBytes_headerFields, length_fieldBytes, map_fst_headerFields, sum_headerWidths])

theorem length_bmpFile (s : State) : s.bmpFile.length = 122 + 4 * (s.lvl.curW * s.lvl.curH) := by
  rw [← fieldBytes_bmpFields, length_fieldBytes, State.bmpFields, List.map_append, List.sum_append,
    map_fst_headerFields, sum_headerWidths]
  simp [State.pixelFields, Function.comp_def, Nat.mul_comm]

/-- Width and height of a level R318 lets through fit 30 bits. -/
theorem size_lt_of_fileSize {w h : Nat} (hsize : 122 + 4 * w * h < 2 ^ 32) (hw : 1 ≤ w) (hh : 1 ≤ h) :
    w < 2 ^ 30 ∧ h < 2 ^ 30 := by
  have hwle : w ≤ w * h := Nat.le_mul_of_pos_right w hh
  have hhle : h ≤ w * h := Nat.le_mul_of_pos_left h hw
  rw [Nat.mul_assoc] at hsize
  omega

/-- A signed 32-bit parameter is read back from its field (R353). -/
theorem toInt_signedField {i : Int} (hlow : -2 ^ 31 ≤ i) (hhigh : i < 2 ^ 31) :
    (BitVec.ofNat 32 (signedField i)).toInt = i := by
  rw [signedField, BitVec.ofNat_toNat, BitVec.setWidth_eq, BitVec.toInt_ofInt]
  exact Int.bmod_eq_of_le hlow hhigh

/-! ### The outcomes of EMIT -/

/-- The answer list's first entry is the host's answer (notes/assumptions/4.md). -/
theorem hostAnswer_of_answers {s : State} {a : EmitAnswer} {rest : List EmitAnswer} (h : s.answers = a :: rest) :
    s.hostAnswer = a := by
  simp [State.hostAnswer, h]

theorem useAnswer_of_answers {s : State} {a : EmitAnswer} {rest : List EmitAnswer} (h : s.answers = a :: rest) :
    s.useAnswer = { s with
      answers := rest
      emitCount := s.emitCount + 1
      drawCount := s.drawCount + s.lvl.curW * s.lvl.curH } := by
  simp [State.useAnswer, h]

/-- Accepting an image at a level of the directory (R350). -/
theorem acceptImage_of_level {s : State} (img : OutImage) (hl : s.seq.level.val < 16) :
    s.acceptImage img = { s with
      out := s.out ++ [img]
      levelStatus := s.levelStatus.set s.seq.level.val .ok hl
      status := { s.status with
        levelsVisited := s.status.levelsVisited + 1, levelsEmitted := s.status.levelsEmitted + 1 }
      seq := { s.seq with step := .nextLevel } } := by
  simp [State.acceptImage, State.setLevelStatus, State.pushOut, State.countVisited, State.goto, hl]

/-- A level error at a level of the directory is the entry of R383. -/
theorem levelError_of_level {s : State} (c : LevelCode) (hl : s.seq.level.val < 16) :
    s.levelError c = errorEntry s c hl := by
  simp [State.levelError, State.setLevelStatus, State.countVisited, State.discardCanvas, State.goto, errorEntry, hl]

/-- EMIT completes in a machine without a fault (R350). -/
theorem exec_emit {s : State} (hf : s.fault = none) : exec .emit s = .next s.emitStep :=
  whenLive_next_iff.2 ⟨hf, rfl⟩

theorem emitStep_of_ok {s : State} (h : s.hostAnswer = .ok) : s.emitStep = s.useAnswer.acceptImage s.image := by
  simp [State.emitStep, h]

theorem emitStep_of_fail {s : State} (h : s.hostAnswer = .fail) : s.emitStep = s.useAnswer.levelError .ioError := by
  simp [State.emitStep, h]

/-- Settles O35: the answer is ok, so EMIT accepts the image. -/
theorem emitAcceptedQueuesTheImage : Obligations.EmitAcceptedQueuesTheImage := by
  intro s rest hl hf hanswers
  rw [exec_emit hf, emitStep_of_ok (hostAnswer_of_answers hanswers), acceptImage_of_level (s := s.useAnswer) s.image hl]
  simp only [useAnswer_of_answers hanswers, State.image]

/-- Settles O36: the answer is fail, so EMIT is the level error entry. -/
theorem emitFailedIsAnIoError : Obligations.EmitFailedIsAnIoError := by
  intro s rest hl hf hanswers
  rw [exec_emit hf, emitStep_of_fail (hostAnswer_of_answers hanswers),
    levelError_of_level (s := s.useAnswer) .ioError hl]
  simp only [useAnswer_of_answers hanswers]

/-- Settles O37: whatever the answer, EMIT accepts the image or enters the level error, and both lead to NEXT. -/
theorem emitCompletesForEveryAnswer : Obligations.EmitCompletesForEveryAnswer := by
  intro s hf
  refine ⟨s.emitStep, exec_emit hf, ?_⟩
  rcases emitStep_cases s with haccept | herror
  · rw [haccept]
    simp [State.acceptImage, State.useAnswer, State.image, hf]
  · rw [herror]
    simp [State.useAnswer, hf]

/-! ### The file -/

/-- Settles O38: each field of R351 and R352 is one of the header's fields, and its value fits its width. -/
theorem bmpHeaderFieldsAreAtTheirOffsets : Obligations.BmpHeaderFieldsAreAtTheirOffsets := by
  intro s hsize hw hh hlegal
  obtain ⟨hwlt, hhlt⟩ := size_lt_of_fileSize hsize hw hh
  obtain ⟨hxlow, hxhigh, hylow, hyhigh, hcs, -⟩ := of_decide_eq_true hlegal
  have hx : leNat ((s.bmpFile.drop 38).take 4) = signedField s.params.bmpXppm :=
    leNat_bmpFile_header 12 rfl rfl (BitVec.isLt _)
  have hy : leNat ((s.bmpFile.drop 42).take 4) = signedField s.params.bmpYppm :=
    leNat_bmpFile_header 13 rfl rfl (BitVec.isLt _)
  dsimp only
  rw [hx, hy]
  exact ⟨by rw [length_bmpFile, Nat.mul_assoc], leNat_bmpFile_header 0 rfl rfl, leNat_bmpFile_header 1 rfl rfl hsize,
    leNat_bmpFile_header 2 rfl rfl, leNat_bmpFile_header 3 rfl rfl, leNat_bmpFile_header 4 rfl rfl,
    leNat_bmpFile_header 5 rfl rfl, leNat_bmpFile_header 6 rfl rfl (by omega),
    leNat_bmpFile_header 7 rfl rfl (by omega), by omega, leNat_bmpFile_header 8 rfl rfl,
    leNat_bmpFile_header 9 rfl rfl, leNat_bmpFile_header 10 rfl rfl, leNat_bmpFile_header 11 rfl rfl (by omega),
    toInt_signedField hxlow hxhigh, toInt_signedField hylow hyhigh, leNat_bmpFile_header 14 rfl rfl,
    leNat_bmpFile_header 15 rfl rfl, leNat_bmpFile_header 16 rfl rfl, leNat_bmpFile_header 17 rfl rfl,
    leNat_bmpFile_header 18 rfl rfl, leNat_bmpFile_header 19 rfl rfl, leNat_bmpFile_header 20 rfl rfl hcs,
    leNat_bmpFile_header 21 rfl rfl, leNat_bmpFile_header 22 rfl rfl⟩

/-- Settles O39: the word of the file at a cell's place is what EMIT reads from the cell, written or drawn. -/
theorem bmpPixelsAreTheCanvasInStorageOrder : Obligations.BmpPixelsAreTheCanvasInStorageOrder := by
  refine fun s => ⟨length_bmpFile s, fun i hi => ⟨fun v hcell => ?_, fun hcell => ?_⟩⟩
  · rw [leNat_bmpFile_cell s hi, State.emitCell, hcell, Option.getD_some]
  · rw [leNat_bmpFile_cell s hi, State.emitCell, hcell, Option.getD_none]

/-! ### The red block -/

/-- Every cell of a 4 × 4 canvas belongs to a pixel of the tile at its origin (R291). -/
theorem exists_pixelCell {c : Canvas} (hw : c.width = 4) (hh : c.height = 4) {i : Nat} (hi : i < 16) :
    ∃ p, pixelCell c 0 0 p = i := by
  refine ⟨⟨4 * (3 - i / 4) + i % 4, by omega⟩, ?_⟩
  simp only [pixelCell, hw, hh]
  omega

/-- Entry 0 of the four-colour ramp is the first endpoint (R204). -/
theorem getElem_ramp4_zero (c0 c1 : BitVec 16) (pal : Vector PalEntry 4) :
    (ramp4 c0 c1 pal)[(0 : Fin 4)] = colourEntry c0 pal[0].a := by
  rw [ramp4, getElem_rampPal]
  simp [rampEntry, ramp4Lane, colourEntry]

/-- The first endpoint of the example is greater, so the ramp has four colours, and lookup 0 names entry 0: every pixel
is opaque red (R203, R206, R358). -/
theorem bc1Value_redBlock (s : State) (p : Fin 16) :
    bc1Value (bc1Prepared s 0xF800 0x001F 0) (BitVec.ofNat 32 0) p = 0x00FFF800#32 := by
  have hindex : colourIndex (BitVec.ofNat 32 0) p.val = 0 := by revert p; decide
  have hpal : (bc1Prepared s 0xF800 0x001F 0).pal[(0 : Fin 4)] = colourEntry 0xF800 s.pal[0].a :=
    getElem_ramp4_zero _ _ _
  simp only [bc1Value, hindex]
  have h := palPixel_colourEntry 0xF800 s.pal[0].a 0xFF
  rw [← hpal] at h
  exact h

/-- Settles O40: the 16 pixels of the block are opaque red, they fill the canvas, and the pixel array is their bytes. -/
theorem redBlockGivesSixteenRedPixels : Obligations.RedBlockGivesSixteenRedPixels := by
  intro s t c a hc hcw hch hw hh h0 h1 h2 h
  obtain ⟨hf, rfl⟩ := whenLive_next_iff.1 h
  have hx : 0 + 3 < c.width := by omega
  have hy : 0 + 3 < c.height := by omega
  have hblock := bc1Block_tile hf hc hx hy h0 h1 h2 rfl
  have hcells : ∀ i, i < 16 → (bc1Block a 0 0 s).canvasCell i = some 0x00FFF800#32 := by
    intro i hi
    obtain ⟨p, rfl⟩ := exists_pixelCell hcw hch hi
    rw [canvasCell_tileCells (congrArg State.canvas hblock) hx hy p]
    exact congrArg some (bc1Value_redBlock s p)
  refine ⟨hcells, ?_⟩
  have hlvl : (bc1Block a 0 0 s).lvl = s.lvl := decoderFrame_lvl (decodeBlock_frame .bc1 a 0 0 s)
  have hbytes : ∀ i ∈ List.range 16, leBytes 4 ((bc1Block a 0 0 s).emitCell i).toNat = leBytes 4 0x00FFF800 :=
    fun i hi => by rw [State.emitCell, hcells i (List.mem_range.1 hi)]; rfl
  rw [bmpFile_drop_header, State.pixelArray, hlvl, hw, hh, List.flatMap_congr hbytes]
  decide

end Sys2Proof.Machine
end

section
/-! PROOFS. Reset and hazards (70_reset_and_hazards.md R433): in a faulted machine every operation but NOP and every host
action but reset leaves FAULT as it is. -/

namespace Sys2Proof.Machine

/-! ### What keeps FAULT -/

/-- The answer is no way out of the fault: a next state, if there is one, still holds it (R53). -/
def KeepsFault (f : Fault) (o : Answer) : Prop := ∀ t, o = .next t → t.fault = some f

theorem keepsFault_next {s : State} {f : Fault} (hf : s.fault = some f) : KeepsFault f (.next s) := by
  rintro t ⟨⟩
  exact hf

theorem keepsFault_refused (f : Fault) (r : Refusal) : KeepsFault f (.refused r) := by
  rintro t ⟨⟩

theorem keepsFault_fault (f g : Fault) : KeepsFault f (.fault g) := by
  rintro t ⟨⟩

section
variable {s : State} {f : Fault} (hf : s.fault = some f)
include hf

/-- Of the instructions a faulted machine takes only NOP, which changes nothing (R53, R311). -/
theorem keepsFault_exec (i : Instr) : KeepsFault f (exec i s) := by
  by_cases hi : i = .nop
  · subst hi
    exact keepsFault_next hf
  · rw [exec_faulted hf hi]
    exact keepsFault_fault f f

/-- In its turn a faulted engine has no step, in IDLE or elsewhere (R53). -/
theorem keepsFault_fetchEngine : KeepsFault f (fetchEngine s).answer := by
  cases hi : stepInstr s.seq.step with
  | some i =>
    rw [fetchEngine_run hi]
    exact keepsFault_exec hf i
  | none =>
    simp only [fetchEngine, hi, hf]
    exact keepsFault_fault f f

/-- A register write outside CMD reaches IN_LEN at most (R37, R39). -/
theorem keepsFault_hostWrite (addr : Nat) (v : Word) : KeepsFault f (hostWrite s addr v) := by
  unfold hostWrite writeInLen
  split_ifs
  · exact keepsFault_next hf
  · exact keepsFault_next hf
  · exact keepsFault_refused f _
  · exact keepsFault_next hf

/-- A CMD write runs its command or sets BADCMD (R150); another write is `hostWrite`. -/
theorem keepsFault_fetchWrite (addr size : Nat) (v : Word) : KeepsFault f (fetchWrite s addr size v).answer := by
  unfold fetchWrite
  rw [decodeCmd_word]
  split_ifs
  · exact keepsFault_refused f _
  · cases decodeCmdWord v with
    | error e => exact keepsFault_next hf
    | ok i => exact keepsFault_exec hf i
  · exact keepsFault_hostWrite hf addr v

theorem keepsFault_hostRead (addr size : Nat) : KeepsFault f (hostRead s addr size) := by
  unfold hostRead
  split_ifs
  · exact keepsFault_next hf
  · exact keepsFault_refused f _

theorem keepsFault_hostLoad (bytes : List Byte) : KeepsFault f (hostLoad s bytes) := by
  unfold hostLoad
  split_ifs
  · exact keepsFault_refused f _
  · exact keepsFault_next hf
  · exact keepsFault_refused f _

/-- Every host action but reset keeps FAULT (R433). -/
theorem keepsFault_fetchHost {e : HostEvent} (he : e ≠ .reset) : KeepsFault f (fetchHost e s).answer := by
  cases e with
  | pass => exact keepsFault_fetchEngine hf
  | write addr size v => exact keepsFault_fetchWrite hf addr size v
  | read addr size => exact keepsFault_hostRead hf addr size
  | loadIn bytes => exact keepsFault_hostLoad hf bytes
  | reset => exact absurd rfl he

end

/-! ### The obligation -/

/-- A host reset answers the reset state (R430). -/
theorem step_reset {s : State} {rest : List HostEvent} (hissue : s.issue = none) (hhost : s.host = .reset :: rest) :
    step s = .next (hostReset { s with host := rest }) := by
  rw [step_eq_answer, fetch_host hissue hhost, fetchHost, Fetched.answer]

/-- Settles O48: a step is the latched operation, the engine's turn or a host action, and of these only reset does not
keep FAULT. -/
theorem onlyResetClearsAFault : Obligations.OnlyResetClearsAFault := by
  refine ⟨fun s rest hissue hhost => ⟨_, step_reset hissue hhost, rfl⟩, fun s t f hf ht => ?_⟩
  cases hissue : s.issue with
  | some i =>
    rw [step_issue hissue] at ht
    exact .inl (keepsFault_exec (s := { s with issue := none }) hf i t ht)
  | none =>
    rw [step_eq_answer] at ht
    cases hhost : s.host with
    | nil =>
      rw [fetch_engine hissue hhost] at ht
      exact .inl (keepsFault_fetchEngine hf t ht)
    | cons e rest =>
      rw [fetch_host hissue hhost] at ht
      by_cases he : e = .reset
      · subst he
        exact .inr ⟨rest, rfl, rfl⟩
      · exact .inl (keepsFault_fetchHost (s := { s with host := rest }) hf he t ht)

end Sys2Proof.Machine
end

section
/-! PROOFS. The encodings (30_encoding.md R150 to R152): encoding and decoding in the three code spaces, the CMD word,
the variant selector, and the words of the opcode table. -/

namespace Sys2Proof

/-! ### Decoding what was encoded -/

/-- A number over `m + n` bytes is its low `m` bytes, then its next `n` (R85). -/
theorem leBytes_add (m n v : Nat) : leBytes (m + n) v = leBytes m v ++ leBytes n (v / 256 ^ m) := by
  induction m generalizing v with
  | zero => simp [leBytes]
  | succ m ih => rw [Nat.succ_add, leBytes, leBytes, ih, Nat.div_div_eq_div_mul, pow_succ', List.cons_append]

/-- The bytes of a command word that decodes to an instruction give it back (R150). -/
theorem decode_cmd_leBytes {v : Nat} {i : Instr} (hv : v < 2 ^ 32)
    (hi : decodeCmdWord (BitVec.ofNat 32 v) = .ok i) (rest : List Byte) :
    decode .cmd (leBytes 4 v ++ rest) = .ok (i, rest) := by
  simp [decode, decodeCmd, takeNat_word v hv, hi]

/-- Three operand words are read back, the pixel word whole (R292). -/
theorem decodeCanvasWrite_leBytes {x y : Nat} (hx : x < 2 ^ 32) (hy : y < 2 ^ 32) (v : Word) (rest : List Byte) :
    decodeCanvasWrite (leBytes 4 x ++ (leBytes 4 y ++ (leBytes 4 v.toNat ++ rest)))
      = .ok (.canvasWrite x y v, rest) := by
  simp [decodeCanvasWrite, takeNat_word x hx, takeNat_word y hy, takeNat_word v.toNat v.isLt]

/-- The bytes of a decoder operation select its variant and give its operands back (R152, R200). -/
theorem decodeVsel_encodeBlock (v : Variant) {a ox oy : Nat} (ha : a < 2 ^ 32) (hx : ox < 2 ^ 32) (hy : oy < 2 ^ 32)
    (rest : List Byte) : decodeVsel (encodeBlock v a ox oy ++ rest) = .ok (decoderInstr v a ox oy, rest) := by
  have hsel (tail : List Byte) :
      takeNat 6 (leBytes 6 (vselPattern v).toNat ++ tail) = .ok ((vselPattern v).toNat, tail) := by
    rw [takeNat_leBytes_append, Nat.mod_eq_of_lt (show _ < 256 ^ 6 from (vselPattern v).isLt)]
  simp [encodeBlock, decodeVsel, decodeBlockOperands, hsel, takeNat_word a ha, takeNat_word ox hx, takeNat_word oy hy]

theorem fitsWord_iff {n : Nat} : fitsWord n = true ↔ n < 2 ^ 32 := decide_eq_true_iff

/-- Settles O1: a command and a step are read from their own word or code, and every operand word of a decoder or a
canvas write is read back because it fits four bytes. -/
theorem decodeOfEncodeIsTheInstruction : Obligations.DecodeOfEncodeIsTheInstruction := by
  intro i rest hwf
  have hblock (v : Variant) {a ox oy : Nat} (h : (fitsWord a && fitsWord ox && fitsWord oy) = true) :
      decode .vsel (encodeBlock v a ox oy ++ rest) = .ok (decoderInstr v a ox oy, rest) := by
    simp only [Bool.and_eq_true, fitsWord_iff] at h
    obtain ⟨⟨ha, hx⟩, hy⟩ := h
    exact decodeVsel_encodeBlock v ha hx hy rest
  cases i with
  | nop => exact decode_cmd_leBytes (by decide) (by decide) rest
  | convert all => cases all <;> exact decode_cmd_leBytes (by decide) (by decide) rest
  | parse => rfl
  | setup => rfl
  | decode => rfl
  | decodeBc1 a ox oy => exact hblock .bc1 hwf
  | decodeBc2 a ox oy => exact hblock .bc2 hwf
  | decodeBc3 a ox oy => exact hblock .bc3 hwf
  | canvasWrite x y v =>
    simp only [Instr.wf, Bool.and_eq_true, fitsWord_iff] at hwf
    have hoperands := decodeCanvasWrite_leBytes hwf.1 hwf.2 v rest
    simp only [encode, List.append_assoc]
    exact hoperands
  | emit => rfl
  | nextLevel => rfl
  | endRun => rfl

/-! ### The CMD word -/

/-- OP is the low four bits of the CMD word (R34). -/
theorem cmdOp_eq (w : Word) : w.extractLsb' 0 4 = BitVec.ofNat 4 (w.toNat % 16) := by
  apply BitVec.eq_of_toNat_eq
  simp [BitVec.extractLsb'_toNat]

/-- OP 1 is CONVERT, with ALL in bit 8 (R150). -/
theorem decodeCmdWord_of_op_one {w : Word} (h : w.toNat % 16 = 1) :
    decodeCmdWord w = .ok (.convert (decide (w.toNat / 2 ^ 8 % 2 = 1))) := by
  have hall : w.getLsbD 8 = decide (w.toNat / 2 ^ 8 % 2 = 1) := Nat.testBit_eq_decide_div_mod_eq
  have hzero : BitVec.ofNat 4 1 ≠ 0 := by decide
  have hone : BitVec.ofNat 4 1 = 1 := rfl
  simp only [decodeCmdWord, cmdOp_eq, h, if_neg hzero, if_pos hone, hall]

/-- OP 2 to 15 is reserved (R150). -/
theorem decodeCmdWord_of_op_reserved {w : Word} (h : 2 ≤ w.toNat % 16) :
    decodeCmdWord w = .error (.reservedOp (BitVec.ofNat 4 (w.toNat % 16))) := by
  have hop (k : Nat) (hk : k < 2) : BitVec.ofNat 4 (w.toNat % 16) ≠ BitVec.ofNat 4 k := by
    rw [ne_eq, ← BitVec.toNat_inj, BitVec.toNat_ofNat, BitVec.toNat_ofNat]
    omega
  have hzero : BitVec.ofNat 4 (w.toNat % 16) ≠ 0 := hop 0 (by decide)
  have hone : BitVec.ofNat 4 (w.toNat % 16) ≠ 1 := hop 1 (by decide)
  simp only [decodeCmdWord, cmdOp_eq, if_neg hzero, if_neg hone]

/-- Settles O2: the bytes of the word decode as the word does, and the word on its OP. -/
theorem commandWordDecodesOnOp : Obligations.CommandWordDecodesOnOp := by
  intro w
  rw [Machine.decodeCmd_word]
  refine ⟨fun h => ?_, fun h => ?_, fun h => ?_⟩
  · rw [Machine.decodeCmdWord_of_op_zero h]
  · rw [decodeCmdWord_of_op_one h]
  · rw [decodeCmdWord_of_op_reserved h]

/-! ### The variant selector -/

/-- Appended fields do not overlap: the upper one counts 2^n times (R152). -/
theorem toNat_append_eq_add {m n : Nat} (x : BitVec m) (y : BitVec n) :
    (x ++ y).toNat = x.toNat * 2 ^ n + y.toNat := by
  rw [BitVec.toNat_append, ← Nat.shiftLeft_add_eq_or_of_lt y.isLt, Nat.shiftLeft_eq]

/-- VSEL as a number: textureType in the high bits, alphaType in the low ones (R152). -/
theorem vselOf_toNat (t : BitVec 32) (c a : Byte) :
    (vselOf t c a).toNat = t.toNat * 2 ^ 16 + c.toNat * 2 ^ 8 + a.toNat := by
  rw [vselOf, toNat_append_eq_add, toNat_append_eq_add]
  omega

/-- The alphaType of a variant's row (R152). -/
def alphaTypeOf : Variant → Byte
  | .bc1 => 0
  | .bc2 => 1
  | .bc3 => 7

/-- The pattern of a variant is its row: textureType 1, compression 2 and its alphaType (R152). -/
theorem vselPattern_eq (v : Variant) : vselPattern v = vselOf 1 2 (alphaTypeOf v) := by
  cases v <;> decide

/-- The selector picks a variant exactly at its pattern (R152). -/
theorem variantOf_eq_some {x : BitVec 48} {v : Variant} : variantOf x = some v ↔ x = vselPattern v where
  mp h := by
    unfold variantOf at h
    split_ifs at h <;> cases h <;> assumption
  mpr h := h ▸ variantOf_vselPattern v

/-- Two VSEL values are equal only field by field. -/
theorem vselOf_inj {t t' : BitVec 32} {c c' a a' : Byte} :
    vselOf t c a = vselOf t' c' a' ↔ t = t' ∧ c = c' ∧ a = a' := by
  have hc := c.isLt
  have ha := a.isLt
  have hc' := c'.isLt
  have ha' := a'.isLt
  simp only [← BitVec.toNat_inj, vselOf_toNat]
  omega

/-- The fields that select a variant are those of its row (R152). -/
theorem variantOf_vselOf_eq_some {t : BitVec 32} {c a : Byte} {v : Variant} :
    variantOf (vselOf t c a) = some v ↔ t = 1 ∧ c = 2 ∧ a = alphaTypeOf v := by
  rw [variantOf_eq_some, vselPattern_eq, vselOf_inj]

/-- No variant is selected exactly when a field is that of no row (R153). -/
theorem variantOf_vselOf_eq_none {t : BitVec 32} {c a : Byte} :
    variantOf (vselOf t c a) = none ↔ t ≠ 1 ∨ c ≠ 2 ∨ (a ≠ 0 ∧ a ≠ 1 ∧ a ≠ 7) := by
  simp only [Option.eq_none_iff_forall_ne_some, ne_eq, variantOf_vselOf_eq_some]
  refine ⟨fun h => ?_, fun h v => ?_⟩
  · have h1 : ¬ (t = 1 ∧ c = 2 ∧ a = 0) := h .bc1
    have h2 : ¬ (t = 1 ∧ c = 2 ∧ a = 1) := h .bc2
    have h3 : ¬ (t = 1 ∧ c = 2 ∧ a = 7) := h .bc3
    tauto
  · rintro ⟨ht, hc, ha⟩
    cases v <;> simp_all [alphaTypeOf]

/-- Settles O3: the selector compares VSEL with the patterns, and VSEL determines its three fields. -/
theorem variantSelectorIsTheThreeRows : Obligations.VariantSelectorIsTheThreeRows := by
  refine fun t c a => ⟨fun v => ?_, variantOf_vselOf_eq_none, vselOf_toNat t c a⟩
  rw [variantOf_vselOf_eq_some]
  cases v <;> rfl

/-! ### The table's words -/

/-- Settles O4: the words are closed numbers. -/
theorem tableWordsDecodeToTheirRows : Obligations.TableWordsDecodeToTheirRows := by
  unfold Obligations.TableWordsDecodeToTheirRows
  decide

/-- A table word of the command space is its CMD word, with zero bytes above it. -/
theorem decodeTableWord_cmd {nbits w : Nat} {i : Instr} (hfmt : formatOfBits nbits = some .cmd)
    (h : decodeTableWord nbits w = some i) : decodeCmdWord (BitVec.ofNat 32 (w % 2 ^ nbits)) = .ok i := by
  have hbits : nbits ≤ 32 := by
    by_contra hwide
    rw [formatOfBits, if_neg (by omega), if_neg hwide] at hfmt
    split at hfmt <;> cases hfmt
  have hv : w % 2 ^ nbits < 2 ^ 32 :=
    (Nat.mod_lt w (Nat.two_pow_pos nbits)).trans_le (Nat.pow_le_pow_right (by decide) hbits)
  simp only [decodeTableWord, hfmt, tableBytes, maxInstrBytes, leBytes_add 4 14, decode, decodeCmd,
    takeNat_word _ hv] at h
  cases hi : decodeCmdWord (BitVec.ofNat 32 (w % 2 ^ nbits)) with
  | error e => simp [hi] at h
  | ok j => simpa [hi] using h

end Sys2Proof
end

section
/-! PROOFS. What a step runs (10_state.md R31; 20_memory.md R93; 45_orchestrator.md R310): a command from the host, the
sequencer's step, and the instruction of a table word. -/

namespace Sys2Proof.Machine

/-! ### A command from the host -/

/-- The bytes of a CMD word that decode to an instruction are those of a word that does (R150). -/
theorem decodeCmdWord_of_decode {w : Word} {i : Instr} {bs : List Byte}
    (h : decode .cmd (leBytes 4 w.toNat) = .ok (i, bs)) : decodeCmdWord w = .ok i := by
  rw [decodeCmd_word] at h
  cases hw : decodeCmdWord w with
  | error e => simp [hw] at h
  | ok j =>
    simp only [hw, Except.ok.injEq, Prod.mk.injEq] at h
    rw [h.1]

/-- Settles O5: the bytes decode as the word does. -/
theorem stepRunsTheDecodedCommand : Obligations.StepRunsTheDecodedCommand :=
  fun _ _ _ _ _ hissue hhost h => step_cmdWrite hissue hhost (decodeCmdWord_of_decode h)

/-- With nothing on the issue latch a step is the host's next action. -/
theorem step_host {s : State} {e : HostEvent} {rest : List HostEvent} (hissue : s.issue = none)
    (hhost : s.host = e :: rest) : step s = (fetchHost e { s with host := rest }).answer := by
  rw [step_eq_answer, fetch_host hissue hhost]

/-- Settles O11: OP 2 to 15 decodes to no instruction, and such a write only sets BADCMD. -/
theorem reservedOpSetsBadCmdOnly : Obligations.ReservedOpSetsBadCmdOnly := by
  intro s w rest hissue hhost hop
  have hlegal : legalAccess 0x000 4 = true := by decide
  have hwrite : fetchWrite { s with host := rest } 0x000 4 w = .reply (.next { s with host := rest }.setBadCmd) := by
    simp [fetchWrite, hlegal, decodeCmd_word, decodeCmdWord_of_op_reserved hop]
  rw [step_host hissue hhost, fetchHost, hwrite]
  rfl

/-! ### The sequencer's step -/

/-- The engine takes its turn when the host's script is empty and when the host passes (R443). -/
theorem step_engineTurn {s s' : State} (hissue : s.issue = none)
    (hturn : (s.host = [] ∧ s' = s) ∨ ∃ rest, s.host = .pass :: rest ∧ s' = { s with host := rest }) :
    step s = (fetchEngine s').answer := by
  obtain ⟨hhost, rfl⟩ | ⟨rest, hhost, rfl⟩ := hturn
  · rw [step_eq_answer, fetch_engine hissue hhost]
  · rw [step_host hissue hhost, fetchHost]

/-- The step an instruction is runs that instruction (R151). -/
theorem stepInstr_of_instrStep {i : Instr} {x : SeqStep} (h : instrStep i = some x) : stepInstr x = some i := by
  cases i <;> cases h <;> rfl

/-- In IDLE a machine without a fault stays as it is (R398). -/
theorem fetchEngine_idle {s : State} (hidle : s.seq.step = .idle) (hf : s.fault = none) :
    (fetchEngine s).answer = .next s := by
  simp [fetchEngine, stepInstr, hidle, hf, Fetched.answer]

/-- Settles O6: the engine's turn runs the instruction of STEP, and in IDLE it runs none. -/
theorem stepRunsTheSequencerStep : Obligations.StepRunsTheSequencerStep := by
  intro s s' i hissue hturn
  have hstep := step_engineTurn hissue hturn
  have hseq : s'.seq = s.seq ∧ s'.fault = s.fault := by
    obtain ⟨-, rfl⟩ | ⟨rest, -, rfl⟩ := hturn <;> exact ⟨rfl, rfl⟩
  refine ⟨fun hi => ?_, fun hidle hf => ?_⟩
  · rw [← hseq.1] at hi
    rw [hstep, fetchEngine_run (stepInstr_of_instrStep hi), Fetched.answer]
  · rw [hstep, fetchEngine_idle (hseq.1 ▸ hidle) (hseq.2.trans hf)]

/-! ### The instruction of a table word -/

/-- A placed sequencer step runs with STEP at it. -/
theorem step_withInstr_of_step {i : Instr} {x : SeqStep} (h : instrStep i = some x) (s : State) :
    step (s.withInstr i) = exec i { s with issue := none, fault := none, seq := { s.seq with step := x } } := by
  have hplaced : s.withInstr i = { s with
      issue := none, fault := none, host := .pass :: s.host, seq := { s.seq with step := x } } := by
    simp [State.withInstr, h]
  rw [step_host (s := s.withInstr i) (rest := s.host) (by rw [hplaced]) (by rw [hplaced]), fetchHost,
    fetchEngine_run (i := i) (by rw [hplaced]; exact stepInstr_of_instrStep h), Fetched.answer, hplaced]

/-- A placed operation of a unit runs on the state as it was, with FAULT none. -/
theorem step_withInstr_of_unit {i : Instr} (h : instrStep i = none) (s : State) :
    step (s.withInstr i) = exec i { s with issue := none, fault := none } := by
  have hplaced : s.withInstr i = { s with issue := some i, fault := none } := by simp [State.withInstr, h]
  rw [hplaced, step_issue rfl]

/-- Settles O7: a word of the command space is placed as a CMD write of that word, any other word as the instruction it
decodes to. -/
theorem withFetchWordRunsTheInstruction : Obligations.WithFetchWordRunsTheInstruction := by
  intro s nbits w i h
  by_cases hfmt : formatOfBits nbits = some .cmd
  · have hi := decodeTableWord_cmd hfmt h
    have hunit : instrStep i = none := by
      obtain rfl | ⟨all, rfl⟩ := decodeCmdWord_ok hi <;> rfl
    have hplaced : s.withFetchWord nbits w = s.withCmdWrite (BitVec.ofNat 32 (w % 2 ^ nbits)) := by
      simp [State.withFetchWord, placeFetchWord, hfmt]
    rw [hplaced, step_cmdWrite (rest := s.host) rfl rfl hi, hunit]
    rfl
  · have hplaced : s.withFetchWord nbits w = s.withInstr i := by
      unfold State.withFetchWord placeFetchWord
      split
      · next hcmd => exact absurd hcmd hfmt
      · rw [h]
    rw [hplaced]
    cases hx : instrStep i with
    | some x => exact step_withInstr_of_step hx s
    | none => exact step_withInstr_of_unit hx s

/-! ### CONVERT -/

/-- Settles O9: every check of CONVERT passes, so it starts the run. -/
theorem convertStartsARun : Obligations.ConvertStartsARun := by
  intro s all hf hbusy hlegal hduty
  rw [exec, execConvert, whenLive_live _ hf]
  simp [hbusy, hlegal, hduty, State.startRun]

/-- Settles O10: each case is one check of CONVERT, in the order FAULT, BUSY, parameters, IN. -/
theorem convertIgnoredStoppedOrRefused : Obligations.ConvertIgnoredStoppedOrRefused := by
  refine fun s all => ⟨fun f hf => exec_faulted hf nofun, fun hf hbusy => ?_, fun hf hbusy hlegal => ?_,
    fun hf hbusy hlegal hduty => ?_⟩ <;>
    rw [exec, execConvert, whenLive_live _ hf]
  · simp [hbusy]
  · simp [hbusy, hlegal]
  · simp [hbusy, hlegal, hduty]

/-! ### The engine leaves IN and the host's data alone -/

/-- `t` has the IN, IN_LEN, parameters, script and notes of `s`. -/
def inputsKept (s t : State) : Prop :=
  t.inMem = s.inMem ∧ t.inLen = s.inLen ∧ t.params = s.params ∧ t.host = s.host ∧ t.hostReads = s.hostReads

theorem decoderFrame_inputs {s t : State} (h : decoderFrame s t) : inputsKept s t := by
  rw [h]
  exact ⟨rfl, rfl, rfl, rfl, rfl⟩

theorem parseStep_inputs (s : State) : inputsKept s s.parseStep := by
  rcases parseStep_cases s with ⟨bs, -, -, h⟩ | ⟨c, h⟩ | h <;> rw [h] <;> exact ⟨rfl, rfl, rfl, rfl, rfl⟩

theorem setupStep_inputs (s : State) : inputsKept s s.setupStep := by
  rcases setupStep_cases s with h | ⟨-, ⟨c, h⟩ | ⟨-, h⟩⟩ <;> rw [h]
  · exact ⟨rfl, rfl, rfl, rfl, rfl⟩
  · simp [inputsKept]
  · exact ⟨rfl, rfl, rfl, rfl, rfl⟩

theorem decodeStep_inputs (s : State) : inputsKept s s.decodeStep := by
  have hblock := decoderFrame_inputs (decodeBlock_frame s.lvl.variant (blockAddr s.lvl s.seq.block)
    (blockX s.lvl s.seq.block) (blockY s.lvl s.seq.block) s)
  unfold State.decodeStep
  split
  · exact ⟨rfl, rfl, rfl, rfl, rfl⟩
  · unfold State.andThen
    split <;> exact hblock

theorem emitStep_inputs (s : State) : inputsKept s s.emitStep := by
  rcases emitStep_cases s with h | h <;> rw [h] <;> simp [inputsKept, State.acceptImage, State.useAnswer]

theorem nextLevelStep_inputs (s : State) : inputsKept s s.nextLevelStep := by
  unfold State.nextLevelStep
  split <;> exact ⟨rfl, rfl, rfl, rfl, rfl⟩

theorem exec_convert_inputs {all : Bool} {s t : State} (h : exec (.convert all) s = .next t) : inputsKept s t := by
  rw [exec, execConvert, whenLive_eq_next] at h
  obtain ⟨-, h⟩ := h
  split_ifs at h <;> cases h <;> exact ⟨rfl, rfl, rfl, rfl, rfl⟩

/-- An operation of the engine keeps as an instruction what it keeps as an update. -/
theorem inputsKept_of_whenLive {s t : State} {f : State → State} (hf : inputsKept s (f s))
    (h : whenLive s (fun s => .next (f s)) = .next t) : inputsKept s t :=
  (whenLive_next_iff.1 h).2 ▸ hf

/-- Settles O49: each operation writes only what its own lemma leaves open. -/
theorem engineNeverWritesIn : Obligations.EngineNeverWritesIn := by
  intro i s t h
  have hdecoder (v : Variant) (a ox oy : Nat) : inputsKept s (decodeBlock v a ox oy s) :=
    decoderFrame_inputs (decodeBlock_frame v a ox oy s)
  cases i with
  | nop =>
    cases h
    exact ⟨rfl, rfl, rfl, rfl, rfl⟩
  | convert all => exact exec_convert_inputs h
  | parse => exact inputsKept_of_whenLive (parseStep_inputs s) h
  | setup => exact inputsKept_of_whenLive (setupStep_inputs s) h
  | decode => exact inputsKept_of_whenLive (decodeStep_inputs s) h
  | decodeBc1 a ox oy => exact inputsKept_of_whenLive (hdecoder .bc1 a ox oy) h
  | decodeBc2 a ox oy => exact inputsKept_of_whenLive (hdecoder .bc2 a ox oy) h
  | decodeBc3 a ox oy => exact inputsKept_of_whenLive (hdecoder .bc3 a ox oy) h
  | canvasWrite x y v =>
    exact inputsKept_of_whenLive (f := fun s => s.canvasStore x y v)
      (decoderFrame_inputs (decoderFrame_canvasStore s x y v)) h
  | emit => exact inputsKept_of_whenLive (emitStep_inputs s) h
  | nextLevel => exact inputsKept_of_whenLive (nextLevelStep_inputs s) h
  | endRun => exact inputsKept_of_whenLive (f := State.endStep) ⟨rfl, rfl, rfl, rfl, rfl⟩ h

end Sys2Proof.Machine
end

section
/-! PROOFS. The register space and the host's other actions (10_state.md R33 to R39; 20_memory.md R82, R90, R93;
70_reset_and_hazards.md R430 to R434). -/

namespace Sys2Proof.Machine

/-! ### What a register reads as -/

/-- A header field of `n` bytes is below 256^n (R85). -/
theorem hdrField_lt (h : Vector Byte 148) (o n : Nat) : hdrField h o n < 256 ^ n := by
  have hlt := leNat_lt ((List.range n).map fun j => hdrByte h (o + j))
  rwa [List.length_map, List.length_range] at hlt

/-- Word `k` of the header window (R36, R87). -/
theorem regRead_hdrWindow (s : State) {k : Nat} (hk : k < 37) :
    (regRead s (0x100 + 4 * k)).toNat = hdrField s.hdr (4 * k) 4 := by
  have hword : regRead s (0x100 + 4 * k) = hdrWindowWord s.hdr (0x100 + 4 * k - 0x100) := by
    rw [regRead, if_neg (by omega), if_neg (by omega), if_neg (by omega), if_neg (by omega), if_neg (by omega),
      if_pos (by omega)]
  rw [hword, hdrWindowWord, Nat.add_sub_cancel_left, BitVec.toNat_ofNat]
  exact Nat.mod_eq_of_lt (hdrField_lt s.hdr (4 * k) 4)

/-- LEVEL_STATUS register `i` (R38). -/
theorem regRead_levelStatus (s : State) (i : Fin 16) :
    regRead s (0x200 + 4 * i.val) = (levelNumber s.levelStatus[i]).setWidth 32 := by
  have hindex : (0x200 + 4 * i.val - 0x200) / 4 = i.val := by omega
  rw [regRead, if_neg (by omega), if_neg (by omega), if_neg (by omega), if_neg (by omega), if_neg (by omega),
    if_neg (by omega), if_pos (by omega), hindex, levelStatusWord, dif_pos i.isLt]
  rfl

/-- Settles O41: each address takes its own branch of the map, and an unlisted one takes none. -/
theorem registerMapReads : Obligations.RegisterMapReads := by
  refine fun s => ⟨rfl, rfl, ?_, BitVec.toNat_ofNat .., fun k => regRead_hdrWindow s k.isLt,
    regRead_levelStatus s, fun a ha hwindow hlevels => ?_⟩
  · exact (BitVec.toNat_ofNat ..).trans (Nat.mod_eq_of_lt (by have := s.seq.level.isLt; omega))
  · rw [regRead, if_neg (by omega), if_neg (by omega), if_neg (by omega), if_neg (by omega), if_neg (by omega),
      if_neg (by omega), if_neg (by omega)]

/-- Settles O42: the fields of the word do not overlap, so it is their sum. -/
theorem statusWordFields : Obligations.StatusWordFields := by
  intro s
  have hword : regRead s 0x004 = statusWord s.status := rfl
  simp only [hword, statusWord, toNat_append_eq_add, BitVec.toNat_ofNat, BitVec.toNat_ofBool]
  cases s.status.fatal <;> simp only [fatalNumber, BitVec.reduceToNat] <;> omega

/-! ### Accesses -/

theorem legalAccess_iff {addr size : Nat} :
    legalAccess addr size = true ↔ size = 4 ∧ addr % 4 = 0 ∧ addr < 0x300 := decide_eq_true_iff

/-- A wrong width or alignment, or an address outside the space, makes an access illegal (R82, R90). -/
theorem legalAccess_eq_false {addr size : Nat} (h : size ≠ 4 ∨ addr % 4 ≠ 0 ∨ 0x300 ≤ addr) :
    legalAccess addr size = false := by
  rw [← Bool.not_eq_true, legalAccess_iff]
  omega

/-- Settles O43: the read is recorded for the host exactly when the access is legal. -/
theorem hostReadHasNoSideEffect : Obligations.HostReadHasNoSideEffect := by
  intro s a size rest hissue hhost
  have hstep : step s = hostRead { s with host := rest } a size := step_host hissue hhost
  refine ⟨fun hsize halign hrange => ?_, fun hillegal => ?_⟩
  · rw [hstep, hostRead, if_pos (legalAccess_iff.2 ⟨hsize, halign, hrange⟩)]
    rfl
  · simp [hstep, hostRead, legalAccess_eq_false hillegal]

/-- A legal write outside CMD (R39, R93). -/
theorem step_hostWrite {s : State} {a size : Nat} {v : Word} {rest : List HostEvent} (hissue : s.issue = none)
    (hhost : s.host = .write a size v :: rest) (hlegal : legalAccess a size = true) (hcmd : a ≠ 0x000) :
    step s = hostWrite { s with host := rest } a v := by
  rw [step_host hissue hhost]
  simp [fetchHost, fetchWrite, hlegal, hcmd, Fetched.answer]

/-- Settles O44: a legal write outside CMD reaches IN_LEN, whose own checks answer, or nothing. -/
theorem hostWritesReachInLenOnly : Obligations.HostWritesReachInLenOnly := by
  intro s a size v rest hissue hhost
  have hinLen (hsize : size = 4) (ha : a = 0x008) : step s = writeInLen { s with host := rest } v := by
    rw [step_hostWrite hissue hhost (legalAccess_iff.2 (by omega)) (by omega), hostWrite, if_pos ha]
  refine ⟨fun hillegal => ?_, fun hsize halign hrange hcmd hother => ?_, fun hsize ha hbusy => ?_,
    fun hsize ha hbusy hmax => ?_, fun hsize ha hbusy hmax => ?_⟩
  · rw [step_host hissue hhost]
    simp [fetchHost, fetchWrite, legalAccess_eq_false hillegal, Fetched.answer]
  · rw [step_hostWrite hissue hhost (legalAccess_iff.2 ⟨hsize, halign, hrange⟩) hcmd, hostWrite, if_neg hother]
  · simp [hinLen hsize ha, writeInLen, hbusy]
  · simp [hinLen hsize ha, writeInLen, hbusy, hmax]
  · simp [hinLen hsize ha, writeInLen, hbusy, hmax]

/-- Settles O45: a file placed from address 0 is canonical, and address `a` holds its byte `a`. -/
theorem loadingInIsForIdleOnly : Obligations.LoadingInIsForIdleOnly := by
  intro s bs rest hissue hhost
  have hstep : step s = hostLoad { s with host := rest } bs := step_host hissue hhost
  refine ⟨fun hbusy => ?_, fun hbusy hmax => ⟨placeBytes 0 bs, ?_, Memory.wf_placeBytes bs, fun a => ?_⟩⟩
  · simp [hstep, hostLoad, hbusy]
  · simp [hstep, hostLoad, hbusy, hmax]
  · simpa using lookupCell_placeBytes bs 0 a

/-! ### Reset -/

/-- Settles O46: the reset state is written out field by field. -/
theorem resetValuesOfTheSpec : Obligations.ResetValuesOfTheSpec :=
  ⟨rfl, by decide, rfl, fun k => by simp [State.reset], fun i => by simp [State.reset], rfl, rfl, rfl, rfl, rfl⟩

/-- Settles O47: a reset action answers the reset state with what is not BLPDEC's kept. -/
theorem hostResetFromAnyState : Obligations.HostResetFromAnyState :=
  fun _ _ hissue hhost => step_reset hissue hhost

end Sys2Proof.Machine
end

section
/-! PROOFS. What a step of a machine under the invariant can be (70_reset_and_hazards.md R443, R444): a host action that
the run does not read, an accepted CONVERT, a reset, or the sequencer's step; and what holds after reset. -/

namespace Sys2Proof.Machine

/-! ### The engine's turn -/

/-- The state the engine's turn leaves, by STEP (R31, R443). -/
def State.engineStep (s : State) : State :=
  match s.seq.step with
  | .idle => s
  | .parse => s.parseStep
  | .setup => s.setupStep
  | .decode => s.decodeStep
  | .emit => s.emitStep
  | .nextLevel => s.nextLevelStep
  | .endRun => s.endStep

/-- Without a fault the engine completes its turn, whatever STEP is (R444). -/
theorem fetchEngine_answer {s : State} (hf : s.fault = none) : (fetchEngine s).answer = .next s.engineStep := by
  cases hs : s.seq.step <;> simp [fetchEngine, stepInstr, State.engineStep, hs, hf, Fetched.answer, exec, execParse,
    execSetup, execDecode, execEmit, execNext, execEnd, whenLive_live]

/-- With the host idle a machine under the invariant takes the engine's turn. -/
theorem step_eq_engineStep {s : State} (h : Inv s) (hhost : s.host = []) : step s = .next s.engineStep := by
  rw [step_engineTurn h.noIssue (.inl ⟨hhost, rfl⟩), fetchEngine_answer h.noFault]

/-- Settles O53: the engine's turn completes in every step. -/
theorem engineAlwaysHasANextStep : Obligations.EngineAlwaysHasANextStep :=
  fun _ h hhost => ⟨_, step_eq_engineStep h hhost⟩

/-! ### What a step can be -/

/-- `t` differs from `s` only in what a host action that starts no run and is no reset may write: the script, the notes,
IN, IN_LEN and BADCMD (R35, R37, R93, R434). -/
def hostFrame (s t : State) : Prop :=
  t = { s with
    host := t.host
    hostReads := t.hostReads
    inMem := t.inMem
    inLen := t.inLen
    status := { s.status with badCmd := t.status.badCmd } }

/-- The cases of a step of a machine without a fault and with nothing on the issue latch. `u` is the state with the
host's action taken off the script, and `host` the script left when the engine takes its turn. -/
inductive StepCase (s : State) : State → Prop where
  | host (t : State) : hostFrame s t → StepCase s t
  | convert (u : State) (all : Bool) : StepCase s (u.startRun all)
  | reset (u : State) : StepCase s (hostReset u)
  | engine (host : List HostEvent) : StepCase s ({ s with host := host }).engineStep

/-- The step answers nothing but next states of these cases. -/
def AnswersStepCase (s : State) (o : Answer) : Prop := ∀ t, o = .next t → StepCase s t

theorem answersStepCase_next {s t : State} (h : StepCase s t) : AnswersStepCase s (.next t) := by
  rintro _ ⟨⟩
  exact h

theorem answersStepCase_refused (s : State) (r : Refusal) : AnswersStepCase s (.refused r) := by
  rintro _ ⟨⟩

section
variable {s : State} (hf : s.fault = none) (rest : List HostEvent)

/-- CONVERT starts a run, or is ignored, or refused (R310). -/
theorem answersStepCase_convert (all : Bool) : AnswersStepCase s (exec (.convert all) { s with host := rest }) := by
  intro t ht
  rw [exec, execConvert, whenLive_eq_next] at ht
  obtain ⟨-, ht⟩ := ht
  split_ifs at ht <;> cases ht
  · exact .host _ rfl
  · exact .convert _ all

/-- A write to CMD runs its command or sets BADCMD; another one reaches IN_LEN at most (R39, R93, R150). -/
theorem answersStepCase_fetchWrite (addr size : Nat) (v : Word) :
    AnswersStepCase s (fetchWrite { s with host := rest } addr size v).answer := by
  unfold fetchWrite
  rw [decodeCmd_word]
  split_ifs
  · exact answersStepCase_refused s _
  · cases hi : decodeCmdWord v with
    | error e => exact answersStepCase_next (.host _ rfl)
    | ok i =>
      obtain rfl | ⟨all, rfl⟩ := decodeCmdWord_ok hi
      · exact answersStepCase_next (.host _ rfl)
      · exact answersStepCase_convert rest all
  · unfold Fetched.answer hostWrite writeInLen
    split_ifs
    · exact answersStepCase_next (.host _ rfl)
    · exact answersStepCase_next (.host _ rfl)
    · exact answersStepCase_refused s _
    · exact answersStepCase_next (.host _ rfl)

include hf in
/-- Every action of the host is one of the cases. -/
theorem answersStepCase_fetchHost (e : HostEvent) :
    AnswersStepCase s (fetchHost e { s with host := rest }).answer := by
  cases e with
  | pass =>
    rw [fetchHost, fetchEngine_answer (s := { s with host := rest }) hf]
    exact answersStepCase_next (.engine rest)
  | write addr size v => exact answersStepCase_fetchWrite rest addr size v
  | read addr size =>
    show AnswersStepCase s (hostRead { s with host := rest } addr size)
    unfold hostRead
    split_ifs
    · exact answersStepCase_next (.host _ rfl)
    · exact answersStepCase_refused s _
  | loadIn bytes =>
    show AnswersStepCase s (hostLoad { s with host := rest } bytes)
    unfold hostLoad
    split_ifs
    · exact answersStepCase_refused s _
    · exact answersStepCase_next (.host _ rfl)
    · exact answersStepCase_refused s _
  | reset => exact answersStepCase_next (.reset _)

end

theorem stepCase_of_step {s t : State} (h : Inv s) (ht : step s = .next t) : StepCase s t := by
  cases hhost : s.host with
  | nil =>
    rw [step_eq_engineStep h hhost] at ht
    cases ht
    have hs : s = { s with host := [] } := by rw [← hhost]
    rw [hs]
    exact .engine []
  | cons e rest =>
    rw [step_host h.noIssue hhost] at ht
    exact answersStepCase_fetchHost h.noFault rest e t ht

/-- A property is kept by every step under the invariant when the engine's turn keeps it, it does not read what the host
may write, and it holds at the start of a run and after reset. -/
theorem step_keeps {P : State → Prop} (hhost : ∀ s t, hostFrame s t → P s → P t)
    (hconvert : ∀ s all, P (State.startRun s all)) (hreset : ∀ s, P (hostReset s))
    (hengine : ∀ s, Inv s → P s → P s.engineStep) {s t : State} (h : Inv s) (hp : P s) (ht : step s = .next t) :
    P t := by
  cases stepCase_of_step h ht with
  | host _ hframe => exact hhost s t hframe hp
  | convert u all => exact hconvert u all
  | reset u => exact hreset u
  | engine rest =>
    exact hengine _ (h.hostSide rest s.hostReads s.status.badCmd) (hhost s { s with host := rest } rfl hp)

/-! ### After reset -/

/-- Settles O51: reset leaves IDLE, no canvas, no fault and an empty IN. -/
theorem resetSatisfiesTheInvariant : Obligations.ResetSatisfiesTheInvariant :=
  inv_iff.2 ⟨⟨rfl, rfl, rfl, by simp [State.reset], nofun, rfl⟩, .of_noCanvas rfl nofun nofun nofun⟩

end Sys2Proof.Machine
end

section
/-! PROOFS. The orchestrator's SETUP and DECODE (45_orchestrator.md R312 to R321): the terminator, the checks of a level
in their order, and the block DECODE runs. -/

namespace Sys2Proof.Machine

open Sys2Proof.Claims

/-! ### The terminator -/

theorem atTerminator_iff {s : State} :
    atTerminator s = true ↔ s.seq.level.val = 16 ∨ mipOffset s.hdr s.seq.level.val = 0 := by
  simp [atTerminator, Fin.ext_iff]

theorem setupStep_of_terminator {s : State} (h : atTerminator s = true) : s.setupStep = s.goto .endRun := by
  simp [State.setupStep, h]

/-- A level of the directory with an offset is checked on its registers (R313). -/
theorem setupStep_of_level {s : State} (hl : s.seq.level.val < 16) (hoff : mipOffset s.hdr s.seq.level.val ≠ 0) :
    s.setupStep = ({ s with lvl := levelRegs s }).checkLevel := by
  have hend : ¬ atTerminator s = true := by
    rw [atTerminator_iff]
    omega
  rw [State.setupStep, if_neg hend]

/-- Settles O27: both conditions end the directory. -/
theorem setupStopsAtTheTerminator : Obligations.SetupStopsAtTheTerminator :=
  fun _ hf hend => whenLive_next_iff.2 ⟨hf, setupStep_of_terminator (atTerminator_iff.2 hend)⟩

/-! ### The decoder of the header -/

theorem hdrTextureType_word (h : Vector Byte 148) : BitVec.ofNat 32 (hdrTextureType h) = 1 ↔ hdrField h 4 4 = 1 := by
  have hlt : hdrField h 4 4 < 2 ^ 32 := hdrField_lt h 4 4
  rw [← BitVec.toNat_inj, BitVec.toNat_ofNat, hdrTextureType, Nat.mod_eq_of_lt hlt]
  rfl

theorem hdrByte_eq_iff (h : Vector Byte 148) (o : Nat) (b : Byte) : hdrByte h o = b ↔ hdrField h o 1 = b.toNat := by
  rw [← BitVec.toNat_inj, hdrField_one]

/-- The header's fields name a variant exactly when its VSEL selects it (R152). -/
theorem headerVariant_iff {h : Vector Byte 148} {v : Variant} :
    headerVariant h v ↔ variantOf (hdrVsel h) = some v := by
  rw [hdrVsel, variantOf_vselOf_eq_some, hdrTextureType_word, hdrByte_eq_iff, hdrByte_eq_iff]
  cases v <;> rfl

theorem levelRegs_of_variant {s : State} {v : Variant} (h : variantOf (hdrVsel s.hdr) = some v) :
    levelRegs s = regsFor s.hdr s.seq.level.val v (blockSize v) := by
  simp [levelRegs, regsFor, h]

/-- Without a decoder VARIANT and BS stay (R315, notes/assumptions/11.md). -/
theorem levelRegs_of_noVariant {s : State} (h : variantOf (hdrVsel s.hdr) = none) :
    levelRegs s = regsFor s.hdr s.seq.level.val s.lvl.variant s.lvl.bs := by
  simp [levelRegs, regsFor, h]

/-! ### The checks -/

theorem checkLevel_of_error {s : State} {c : LevelCode} (hl : s.seq.level.val < 16)
    (h : firstLevelError s.params (variantOf (hdrVsel s.hdr)) s.inLen.toNat s.lvl = some c) :
    s.checkLevel = errorEntry s c hl := by
  simp only [State.checkLevel, h, levelError_of_level c hl]

theorem checkLevel_of_none {s : State}
    (h : firstLevelError s.params (variantOf (hdrVsel s.hdr)) s.inLen.toNat s.lvl = none) :
    s.checkLevel = s.startLevel := by
  simp only [State.checkLevel, h]

/-- The dimension check fails on an empty level, and under FAIL on a size that is no multiple of 4 (R314). -/
theorem badDimensions_iff {pol : DimPolicy} {w h : Nat} : badDimensions pol w h = true ↔
    w = 0 ∨ h = 0 ∨ (pol = .fail ∧ (w % 4 ≠ 0 ∨ h % 4 ≠ 0)) := by
  simp [badDimensions, or_assoc]

/-- The allocation check fails on a file size above 32 bits or a canvas above the capacity (R318). -/
theorem badAllocation_iff {cap w h : Nat} : badAllocation cap w h = true ↔
    122 + 4 * w * h > 2 ^ 32 - 1 ∨ 4 * w * h > cap := by
  simp [badAllocation]

/-- Settles O28: the checks of the model are those of the statement, in the same order, and each failing one enters its
error. -/
theorem setupChecksALevelWithADecoder : Obligations.SetupChecksALevelWithADecoder := by
  intro s v hl hf hoff hv l s1
  rw [headerVariant_iff] at hv
  have hregs : levelRegs s = l := levelRegs_of_variant hv
  have hsetup : exec .setup s = .next s1.checkLevel :=
    whenLive_next_iff.2 ⟨hf, by rw [setupStep_of_level hl hoff, hregs]⟩
  have herror {c : LevelCode}
      (h : firstLevelError s.params (variantOf (hdrVsel s.hdr)) s.inLen.toNat l = some c) :
      s1.checkLevel = errorEntry s1 c hl := checkLevel_of_error (s := s1) hl h
  rw [hsetup]
  congr 1
  split_ifs with hempty hwhole hslice hpayload halloc
  · exact herror (if_pos (badDimensions_iff.2 (hempty.imp_right .inl)))
  · exact herror (if_pos (badDimensions_iff.2 (.inr (.inr hwhole))))
  all_goals
    have hdim : ¬ badDimensions s.params.dimPolicy l.curW l.curH = true := fun h => by
      obtain hw | hh | hpol := badDimensions_iff.1 h
      · exact hempty (.inl hw)
      · exact hempty (.inr hh)
      · exact hwhole hpol
    have hsome : variantOf (hdrVsel s.hdr) ≠ none := by simp [hv]
  · apply herror
    rw [firstLevelError, if_neg hdim, if_neg hsome, if_pos hslice]
  · apply herror
    rw [firstLevelError, if_neg hdim, if_neg hsome, if_neg hslice, if_pos hpayload]
  · apply herror
    rw [firstLevelError, if_neg hdim, if_neg hsome, if_neg hslice, if_neg hpayload,
      if_pos (badAllocation_iff.2 halloc)]
  · refine checkLevel_of_none (s := s1) ?_
    show firstLevelError s.params (variantOf (hdrVsel s.hdr)) s.inLen.toNat l = none
    rw [firstLevelError, if_neg hdim, if_neg hsome, if_neg hslice, if_neg hpayload,
      if_neg (badAllocation_iff.not.2 halloc)]

/-- Settles O29: no VSEL pattern matches, so of the checks only the one on the dimensions comes before the second, which
fails. -/
theorem setupRejectsAnUnsupportedEncoding : Obligations.SetupRejectsAnUnsupportedEncoding := by
  intro s hl hf hoff hnone l s1
  have hv : variantOf (hdrVsel s.hdr) = none :=
    Option.eq_none_iff_forall_ne_some.2 fun v hv => hnone v (headerVariant_iff.2 hv)
  have hregs : levelRegs s = l := levelRegs_of_noVariant hv
  have hsetup : exec .setup s = .next s1.checkLevel :=
    whenLive_next_iff.2 ⟨hf, by rw [setupStep_of_level hl hoff, hregs]⟩
  rw [hsetup]
  congr 1
  split_ifs with hdim
  · exact checkLevel_of_error (s := s1) hl (if_pos (badDimensions_iff.2 hdim))
  · refine checkLevel_of_error (s := s1) hl ?_
    show firstLevelError s.params (variantOf (hdrVsel s.hdr)) s.inLen.toNat l = some .unsupportedEncoding
    rw [firstLevelError, if_neg (badDimensions_iff.not.2 hdim), if_pos hv]

/-! ### DECODE -/

theorem decodeStep_of_done {s : State} (h : s.seq.block = s.lvl.nbx * s.lvl.nby) : s.decodeStep = s.goto .emit := by
  simp [State.decodeStep, h]

/-- Settles O30: no block is left. -/
theorem decodeGoesToEmitWhenDone : Obligations.DecodeGoesToEmitWhenDone :=
  fun _ hf h => whenLive_next_iff.2 ⟨hf, decodeStep_of_done h⟩

/-- A block decoder leaves BLOCK alone (R200). -/
theorem decoderFrame_block {s t : State} (h : decoderFrame s t) : t.seq.block = s.seq.block := by
  rw [h]

/-- Settles O31: DECODE runs that decoder, which leaves BLOCK for DECODE to advance. -/
theorem decodeRunsTheVariantsDecoder : Obligations.DecodeRunsTheVariantsDecoder := by
  intro s t hblock h htf
  rw [exec_decoderInstr] at h
  obtain ⟨hf, ht⟩ := whenLive_next_iff.1 h
  have hkept : t.seq.block = s.seq.block := by
    rw [← ht]
    exact decoderFrame_block (decodeBlock_frame ..)
  rw [exec_decode_block hf hblock ht htf, State.nextBlock, hkept]

end Sys2Proof.Machine
end

section
/-! PROOFS. The accounting of levels (10_state.md R35; 20_memory.md R100; 45_orchestrator.md R327; 60_exceptions.md
R380): LEVEL_STATUS, the two counters and OUT agree, and the level under way decides which levels are still to come. -/

namespace Sys2Proof.Machine

open Sys2Proof.Claims

/-! ### The two parts of the accounting -/

/-- What the accounting says of the records, whatever step is next. -/
structure RecordsAgree (s : State) : Prop where
  visited : s.status.levelsVisited.toNat = levelCount s (fun c => decide (c ≠ .notRun))
  emitted : s.status.levelsEmitted.toNat = levelCount s (fun c => decide (c = .ok))
  images : s.out.length = levelCount s (fun c => decide (c = .ok))
  increasing : (s.out.map OutImage.level).Pairwise (· < ·)
  imageOk : ∀ img ∈ s.out, ∃ h : img.level < 16, s.levelStatus[img.level] = .ok

/-- What the accounting says of the step and the level under way. -/
structure PositionAgrees (s : State) : Prop where
  notStarted : s.seq.step = .parse → ∀ i : Fin 16, s.levelStatus[i] = .notRun
  ahead : s.seq.step = .setup ∨ s.seq.step = .decode ∨ s.seq.step = .emit →
    ∀ i : Fin 16, s.seq.level.val ≤ i.val → s.levelStatus[i] = .notRun
  done : s.seq.step = .nextLevel → ∀ i : Fin 16, s.seq.level.val < i.val → s.levelStatus[i] = .notRun
  oneLevel : s.runAll = false → s.seq.step ≠ .idle → s.seq.level = 0

theorem accounting_iff {s : State} : Accounting s ↔ RecordsAgree s ∧ PositionAgrees s where
  mp h := ⟨⟨h.visited, h.emitted, h.images, h.increasing, h.imageOk⟩, ⟨h.notStarted, h.ahead, h.done, h.oneLevel⟩⟩
  mpr h := ⟨h.1.visited, h.1.emitted, h.1.images, h.1.increasing, h.1.imageOk, h.2.notStarted, h.2.ahead, h.2.done,
    h.2.oneLevel⟩

/-- The records agree while none of them changes. -/
theorem RecordsAgree.congr {s t : State} (h : RecordsAgree s)
    (hvisited : t.status.levelsVisited = s.status.levelsVisited)
    (hemitted : t.status.levelsEmitted = s.status.levelsEmitted) (hstatus : t.levelStatus = s.levelStatus)
    (hout : t.out = s.out) : RecordsAgree t where
  visited := by rw [hvisited, h.visited, levelCount, levelCount, hstatus]
  emitted := by rw [hemitted, h.emitted, levelCount, levelCount, hstatus]
  images := by rw [hout, h.images, levelCount, levelCount, hstatus]
  increasing := hout ▸ h.increasing
  imageOk := by rw [hout, hstatus]; exact h.imageOk

/-- The position agrees while it and LEVEL_STATUS and RUN_ALL stay. -/
theorem PositionAgrees.congr {s t : State} (h : PositionAgrees s) (hseq : t.seq = s.seq)
    (hstatus : t.levelStatus = s.levelStatus) (hrunAll : t.runAll = s.runAll) : PositionAgrees t where
  notStarted := by rw [hseq, hstatus]; exact h.notStarted
  ahead := by rw [hseq, hstatus]; exact h.ahead
  done := by rw [hseq, hstatus]; exact h.done
  oneLevel := by rw [hseq, hrunAll]; exact h.oneLevel

/-- At END and in IDLE the position says at most which level a run of one level is at. -/
theorem PositionAgrees.of_noLevel {s : State} (hstep : s.seq.step = .endRun ∨ s.seq.step = .idle)
    (hone : s.runAll = false → s.seq.step ≠ .idle → s.seq.level = 0) : PositionAgrees s where
  notStarted h := by simp [h] at hstep
  ahead h := by rcases h with h | h | h <;> simp [h] at hstep
  done h := by simp [h] at hstep
  oneLevel := hone

/-- A level under way has the levels from it on still to come. -/
theorem PositionAgrees.of_ahead {s : State}
    (hstep : s.seq.step = .setup ∨ s.seq.step = .decode ∨ s.seq.step = .emit)
    (hahead : ∀ i : Fin 16, s.seq.level.val ≤ i.val → s.levelStatus[i] = .notRun)
    (hone : s.runAll = false → s.seq.level = 0) : PositionAgrees s where
  notStarted h := by simp [h] at hstep
  ahead _ := hahead
  done h := by simp [h] at hstep
  oneLevel h _ := hone h

/-- A level done has the levels after it still to come. -/
theorem PositionAgrees.of_done {s : State} (hstep : s.seq.step = .nextLevel)
    (hdone : ∀ i : Fin 16, s.seq.level.val < i.val → s.levelStatus[i] = .notRun)
    (hone : s.runAll = false → s.seq.level = 0) : PositionAgrees s where
  notStarted h := by simp [h] at hstep
  ahead h := by rcases h with h | h | h <;> simp [h] at hstep
  done _ := hdone
  oneLevel h _ := hone h

/-! ### Giving a level its status -/

theorem levelCount_le (s : State) (p : LevelCode → Bool) : levelCount s p ≤ 16 := by
  simpa [levelCount] using List.countP_le_length (p := p) (l := s.levelStatus.toList)

section
variable {s t : State} {l : Nat} {c : LevelCode} {p : LevelCode → Bool} (hl : l < 16)
  (hold : s.levelStatus[l] = .notRun) (ht : t.levelStatus = s.levelStatus.set l c hl) (hp : p .notRun = false)
include hold ht hp

/-- A level that had no status yet counts as its new code does. -/
theorem levelCount_set : levelCount t p = levelCount s p + if p c then 1 else 0 := by
  have hlen : l < s.levelStatus.toList.length := by simpa using hl
  have hget : s.levelStatus.toList[l] = .notRun := by simpa using hold
  rw [levelCount, ht, Vector.toList_set, List.countP_set hlen, hget, hp]
  rfl

theorem levelCount_set_counted (hc : p c = true) : levelCount t p = levelCount s p + 1 := by
  rw [levelCount_set hl hold ht hp, if_pos hc]

theorem levelCount_set_other (hc : p c = false) : levelCount t p = levelCount s p := by
  rw [levelCount_set hl hold ht hp, hc]
  rfl

end

/-- A counter of levels has room for one more. -/
theorem toNat_counter_succ {n : BitVec 5} {s : State} {p : LevelCode → Bool} (h : n.toNat = levelCount s p) :
    (n + 1).toNat = levelCount s p + 1 := by
  have hle := levelCount_le s p
  rw [BitVec.toNat_add, ← h]
  exact Nat.mod_eq_of_lt (by rw [h]; show _ + 1 < 32; omega)

section
variable {s : State} (hl : s.seq.level.val < 16)
  (hahead : ∀ i : Fin 16, s.seq.level.val ≤ i.val → s.levelStatus[i] = .notRun)
include hahead

/-- An image of OUT stands at a level before the one under way. -/
theorem RecordsAgree.image_lt (h : RecordsAgree s) {img : OutImage} (himg : img ∈ s.out) :
    img.level < s.seq.level.val := by
  obtain ⟨hlt, hok⟩ := h.imageOk img himg
  by_contra hge
  have hnot : s.levelStatus[img.level] = .notRun := hahead ⟨img.level, hlt⟩ (by simpa using hge)
  rw [hnot] at hok
  cases hok

/-- The images of OUT keep their levels' status when the level under way gets its own. -/
theorem RecordsAgree.imageOk_set (h : RecordsAgree s) (c : LevelCode) {img : OutImage} (himg : img ∈ s.out) :
    ∃ hi : img.level < 16, (s.levelStatus.set s.seq.level.val c hl)[img.level] = .ok := by
  obtain ⟨hlt, hok⟩ := h.imageOk img himg
  have hne : s.seq.level.val ≠ img.level := (h.image_lt hahead himg).ne'
  exact ⟨hlt, by rw [Vector.getElem_set_ne hl hlt hne, hok]⟩

/-- The level error entry gives the level a status that is not OK and counts it as visited (R383). -/
theorem RecordsAgree.errorEntry (h : RecordsAgree s) {c : LevelCode} (hrun : c ≠ .notRun) (hok : c ≠ .ok) :
    RecordsAgree (errorEntry s c hl) where
  visited := (toNat_counter_succ h.visited).trans
    (levelCount_set_counted hl (hahead ⟨_, hl⟩ (Nat.le_refl _)) rfl rfl (decide_eq_true hrun)).symm
  emitted := h.emitted.trans
    (levelCount_set_other hl (hahead ⟨_, hl⟩ (Nat.le_refl _)) rfl rfl (decide_eq_false hok)).symm
  images := h.images.trans
    (levelCount_set_other hl (hahead ⟨_, hl⟩ (Nat.le_refl _)) rfl rfl (decide_eq_false hok)).symm
  increasing := h.increasing
  imageOk _ himg := h.imageOk_set hl hahead c himg

include hl in
/-- An accepted image gives its level OK, counts it as visited and emitted, and stands after the images before it
(R350). -/
theorem RecordsAgree.acceptImage (h : RecordsAgree s) {img : OutImage} (himg : img.level = s.seq.level.val) :
    RecordsAgree (s.acceptImage img) := by
  rw [acceptImage_of_level img hl]
  have hold := hahead ⟨_, hl⟩ (Nat.le_refl _)
  constructor
  · exact (toNat_counter_succ h.visited).trans (levelCount_set_counted hl hold rfl rfl rfl).symm
  · exact (toNat_counter_succ h.emitted).trans (levelCount_set_counted hl hold rfl rfl rfl).symm
  · rw [levelCount_set_counted (s := s) hl hold rfl rfl rfl, List.length_append, h.images]
    rfl
  · rw [List.map_append, List.pairwise_append]
    refine ⟨h.increasing, List.pairwise_singleton _ _, fun a ha b hb => ?_⟩
    obtain ⟨old, hold, rfl⟩ := List.mem_map.1 ha
    obtain rfl : b = img.level := by simpa using hb
    exact himg ▸ h.image_lt hahead hold
  · intro i hi
    rcases List.mem_append.1 hi with hi | hi
    · exact h.imageOk_set hl hahead .ok hi
    · obtain rfl := List.mem_singleton.1 hi
      have hlt : i.level < 16 := himg ▸ hl
      refine ⟨hlt, ?_⟩
      simp [himg]

/-- The levels after the one that gets its status are still to come. -/
theorem levelStatus_set_after (c : LevelCode) (i : Fin 16) (hi : s.seq.level.val < i.val) :
    (s.levelStatus.set s.seq.level.val c hl)[i] = .notRun :=
  (Vector.getElem_set_ne hl i.isLt hi.ne).trans (hahead i hi.le)

end

/-- The level error entry keeps the accounting of a level under way. -/
theorem Accounting.levelError {s : State} (h : Accounting s) (hl : s.seq.level.val < 16)
    (hstep : s.seq.step = .setup ∨ s.seq.step = .decode ∨ s.seq.step = .emit) {c : LevelCode} (hrun : c ≠ .notRun)
    (hok : c ≠ .ok) : Accounting (s.levelError c) := by
  obtain ⟨hrecords, hposition⟩ := accounting_iff.1 h
  have hahead := hposition.ahead hstep
  have hlive : s.seq.step ≠ .idle := by rcases hstep with hs | hs | hs <;> simp [hs]
  rw [levelError_of_level c hl]
  exact accounting_iff.2 ⟨hrecords.errorEntry hl hahead hrun hok,
    .of_done rfl (levelStatus_set_after hl hahead c) fun hall => hposition.oneLevel hall hlive⟩

/-! ### The steps of the sequencer -/

/-- The accounting does not read the level registers. -/
theorem Accounting.withLvl {s : State} (h : Accounting s) (l : Lvl) : Accounting { s with lvl := l } := by
  obtain ⟨hrecords, hposition⟩ := accounting_iff.1 h
  exact accounting_iff.2 ⟨hrecords.congr rfl rfl rfl rfl, hposition.congr rfl rfl rfl⟩

theorem Accounting.parseStep {s : State} (h : Accounting s) (hs : s.seq.step = .parse) : Accounting s.parseStep := by
  obtain ⟨hrecords, hposition⟩ := accounting_iff.1 h
  have hone (hall : s.runAll = false) : s.seq.level = 0 := hposition.oneLevel hall (by simp [hs])
  rcases parseStep_cases s with ⟨bs, -, -, ht⟩ | ⟨c, ht⟩ | ht <;> rw [ht]
  · exact accounting_iff.2 ⟨hrecords.congr rfl rfl rfl rfl,
      .of_ahead (.inl rfl) (fun i _ => hposition.notStarted hs i) fun _ => rfl⟩
  · exact accounting_iff.2 ⟨hrecords.congr rfl rfl rfl rfl, .of_noLevel (.inl rfl) fun hall _ => hone hall⟩
  · exact accounting_iff.2 ⟨hrecords.congr rfl rfl rfl rfl, hposition.congr rfl rfl rfl⟩

/-- The code a failing check gives is an error (R382). -/
theorem firstLevelError_isError {p : Params} {v : Option Variant} {inLen : Nat} {l : Lvl} {c : LevelCode}
    (h : firstLevelError p v inLen l = some c) : c ≠ .notRun ∧ c ≠ .ok := by
  unfold firstLevelError at h
  split_ifs at h <;> cases h <;> exact ⟨nofun, nofun⟩

theorem Accounting.setupStep {s : State} (h : Accounting s) (hs : s.seq.step = .setup) : Accounting s.setupStep := by
  obtain ⟨hrecords, hposition⟩ := accounting_iff.1 h
  have hone (hall : s.runAll = false) : s.seq.level = 0 := hposition.oneLevel hall (by simp [hs])
  by_cases hend : atTerminator s = true
  · rw [setupStep_of_terminator hend]
    exact accounting_iff.2 ⟨hrecords.congr rfl rfl rfl rfl, .of_noLevel (.inl rfl) fun hall _ => hone hall⟩
  · rw [atTerminator_iff, not_or] at hend
    have hl : s.seq.level.val < 16 := by omega
    rw [setupStep_of_level hl hend.2, State.checkLevel]
    split
    · next c hcheck =>
      obtain ⟨hrun, hok⟩ := firstLevelError_isError hcheck
      exact (h.withLvl (levelRegs s)).levelError hl (.inl hs) hrun hok
    · exact accounting_iff.2 ⟨hrecords.congr rfl rfl rfl rfl,
        .of_ahead (.inr (.inl rfl)) (hposition.ahead (.inl hs)) hone⟩

/-- A block decoder writes nothing the accounting reads (R200). -/
theorem decoderFrame_accounting {s t : State} (h : decoderFrame s t) (hs : Accounting s) : Accounting t := by
  obtain ⟨hrecords, hposition⟩ := accounting_iff.1 hs
  rw [h]
  refine accounting_iff.2 ⟨hrecords.congr rfl rfl rfl rfl, ?_⟩
  exact ⟨hposition.notStarted, hposition.ahead, hposition.done, hposition.oneLevel⟩

/-- DECODE stays within its level, at DECODE or at EMIT (R319). -/
theorem Accounting.withinLevel {s : State} (h : Accounting s) (hs : s.seq.step = .decode) {x : SeqPos}
    (hx : x.step = .decode ∨ x.step = .emit) (hlevel : x.level = s.seq.level) : Accounting { s with seq := x } := by
  obtain ⟨hrecords, hposition⟩ := accounting_iff.1 h
  refine accounting_iff.2 ⟨hrecords.congr rfl rfl rfl rfl, .of_ahead (.inr hx) ?_ fun hall => ?_⟩
  · show ∀ i : Fin 16, x.level.val ≤ i.val → _
    rw [hlevel]
    exact hposition.ahead (.inr (.inl hs))
  · exact hlevel.trans (hposition.oneLevel hall (by simp [hs]))

theorem Accounting.decodeStep {s : State} (h : Accounting s) (hs : s.seq.step = .decode) : Accounting s.decodeStep := by
  have hframe := decodeBlock_frame s.lvl.variant (blockAddr s.lvl s.seq.block) (blockX s.lvl s.seq.block)
    (blockY s.lvl s.seq.block) s
  unfold State.decodeStep
  split
  · exact h.withinLevel hs (.inr rfl) rfl
  · have hstep : (decodeBlock s.lvl.variant (blockAddr s.lvl s.seq.block) (blockX s.lvl s.seq.block)
        (blockY s.lvl s.seq.block) s).seq.step = .decode := by rw [hframe]; exact hs
    unfold State.andThen
    split
    · exact decoderFrame_accounting hframe h
    · exact (decoderFrame_accounting hframe h).withinLevel hstep (.inl rfl) rfl

theorem Accounting.emitStep {s : State} (h : Accounting s) (hl : s.seq.level.val < 16) (hs : s.seq.step = .emit) :
    Accounting s.emitStep := by
  obtain ⟨hrecords, hposition⟩ := accounting_iff.1 h
  have hused : Accounting s.useAnswer :=
    accounting_iff.2 ⟨hrecords.congr rfl rfl rfl rfl, hposition.congr rfl rfl rfl⟩
  have hahead := hposition.ahead (.inr (.inr hs))
  rcases emitStep_cases s with ht | ht <;> rw [ht]
  · refine accounting_iff.2 ⟨(accounting_iff.1 hused).1.acceptImage (s := s.useAnswer) hl hahead rfl, ?_⟩
    rw [acceptImage_of_level (s := s.useAnswer) s.image hl]
    exact .of_done rfl (levelStatus_set_after (s := s.useAnswer) hl hahead .ok)
      fun hall => hposition.oneLevel hall (by simp [hs])
  · exact hused.levelError hl (.inr (.inr hs)) nofun nofun

theorem Accounting.nextLevelStep {s : State} (h : Accounting s) (hl : s.seq.level.val < 16)
    (hs : s.seq.step = .nextLevel) : Accounting s.nextLevelStep := by
  obtain ⟨hrecords, hposition⟩ := accounting_iff.1 h
  unfold State.nextLevelStep
  split
  · next hall =>
    refine accounting_iff.2 ⟨hrecords.congr rfl rfl rfl rfl, .of_ahead (.inl rfl) (fun i hi => ?_) fun hone => ?_⟩
    · have hsucc : (levelSucc s.seq.level).val = s.seq.level.val + 1 := by simp [levelSucc, hl]
      have hle : (levelSucc s.seq.level).val ≤ i.val := hi
      exact hposition.done hs i (by omega)
    · exact absurd (hone.symm.trans hall) nofun
  · exact accounting_iff.2 ⟨hrecords.congr rfl rfl rfl rfl,
      .of_noLevel (.inl rfl) fun hone _ => hposition.oneLevel hone (by simp [hs])⟩

theorem Accounting.endStep {s : State} (h : Accounting s) : Accounting s.endStep :=
  accounting_iff.2 ⟨(accounting_iff.1 h).1.congr rfl rfl rfl rfl, .of_noLevel (.inr rfl) fun _ hne => absurd rfl hne⟩

/-- The engine's turn keeps the accounting: each sequencer step does. -/
theorem Accounting.engineStep {s : State} (hinv : Inv s) (h : Accounting s) : Accounting s.engineStep := by
  unfold State.engineStep
  split
  · exact h
  · next hs => exact h.parseStep hs
  · next hs => exact h.setupStep hs
  · next hs => exact h.decodeStep hs
  · next hs => exact h.emitStep (hinv.emitting hs).level hs
  · next hs => exact h.nextLevelStep (hinv.levelDone hs) hs
  · exact h.endStep

/-! ### The host's actions -/

theorem hostFrame_accounting {s t : State} (h : hostFrame s t) (hs : Accounting s) : Accounting t := by
  obtain ⟨hrecords, hposition⟩ := accounting_iff.1 hs
  rw [h]
  exact accounting_iff.2 ⟨hrecords.congr rfl rfl rfl rfl, hposition.congr rfl rfl rfl⟩

/-- The records agree where no level has a status and OUT is empty. -/
theorem recordsAgree_of_blank {s : State} (hvisited : s.status.levelsVisited = 0)
    (hemitted : s.status.levelsEmitted = 0) (hstatus : s.levelStatus = Vector.replicate 16 .notRun) (hout : s.out = []) : RecordsAgree s := by
  have hcount {p : LevelCode → Bool} (hp : p .notRun = false) : levelCount s p = 0 := by
    simp [levelCount, hstatus, Vector.toList_replicate, hp]
  constructor
  · rw [hvisited, hcount rfl]
    rfl
  · rw [hemitted, hcount rfl]
    rfl
  · rw [hout, hcount rfl]
    rfl
  · rw [hout]
    exact List.Pairwise.nil
  · rw [hout]
    nofun

/-- An accepted CONVERT starts at level 0 with no level run (R310). -/
theorem accounting_startRun (s : State) (all : Bool) : Accounting (s.startRun all) :=
  accounting_iff.2 ⟨recordsAgree_of_blank rfl rfl rfl rfl,
    { notStarted := fun _ i => by simp [State.startRun]
      ahead := by simp [State.startRun]
      done := nofun
      oneLevel := fun _ _ => rfl }⟩

theorem accounting_of_reset {s : State} (hstatus : s.status = State.reset.status)
    (hlevels : s.levelStatus = State.reset.levelStatus) (hout : s.out = []) (hidle : s.seq.step = .idle) :
    Accounting s :=
  accounting_iff.2 ⟨recordsAgree_of_blank (by rw [hstatus]; rfl) (by rw [hstatus]; rfl) hlevels hout,
    .of_noLevel (.inr hidle) fun _ hne => absurd hidle hne⟩

/-! ### The obligations -/

/-- Settles O54: reset leaves every level NOT_RUN, the counters 0 and OUT empty. -/
theorem resetSatisfiesTheAccounting : Obligations.ResetSatisfiesTheAccounting :=
  accounting_of_reset rfl rfl rfl rfl

/-- Settles O55: the engine's turn keeps the accounting, the host does not write what it reads, and a run starts with it
as reset leaves it. -/
theorem stepKeepsTheAccounting : Obligations.StepKeepsTheAccounting := by
  intro s t
  exact step_keeps (fun _ _ => hostFrame_accounting) accounting_startRun (fun _ => accounting_of_reset rfl rfl rfl rfl)
    fun _ => Accounting.engineStep

end Sys2Proof.Machine
end

section
/-! PROOFS. The coverage of the canvas (45_orchestrator.md R319, R325, R328; 20_memory.md R100): the blocks decoded so
far are written, the margins outside the block grid are not, and under FAIL there is no margin. -/

namespace Sys2Proof.Machine

/-! ### Steps without a canvas to speak of -/

theorem Coverage.of_step {s : State} (hd : s.seq.step ≠ .decode) (he : s.seq.step ≠ .emit) : Coverage s where
  decoding h := absurd h hd
  emitting h := absurd h he
  margins h := by
    obtain h | h := h
    · exact absurd h hd
    · exact absurd h he

/-- Coverage reads the position, the level registers and the canvas only. -/
theorem Coverage.congr {s t : State} (h : Coverage s) (hseq : t.seq = s.seq) (hlvl : t.lvl = s.lvl)
    (hcanvas : t.canvas = s.canvas) : Coverage t := by
  have hwritten (k : Nat) : blocksWritten t k ↔ blocksWritten s k := by
    unfold blocksWritten
    rw [hlvl, hcanvas]
  have hmargins : marginsUnwritten t ↔ marginsUnwritten s := by
    unfold marginsUnwritten
    rw [hlvl, hcanvas]
  constructor
  · rw [hseq, hwritten]
    exact h.decoding
  · rw [hseq, hlvl, hwritten]
    exact h.emitting
  · rw [hseq, hmargins]
    exact h.margins

/-! ### The blocks of the grid -/

/-- A pixel of a block of the grid lies inside the grid (R320). -/
theorem blockPixel_inside {l : Lvl} {k : Nat} (hk : k < l.nbx * l.nby) (p : Fin 16) :
    blockX l k + p.val % 4 < 4 * l.nbx ∧ blockY l k + p.val / 4 < 4 * l.nby := by
  have hcol : k % l.nbx < l.nbx := Nat.mod_lt k (Nat.pos_of_mul_pos_right (Nat.zero_lt_of_lt hk))
  have hrow : k / l.nbx < l.nby := Nat.div_lt_of_lt_mul hk
  have hp := p.isLt
  unfold blockX blockY
  omega

/-- The cells `m` are those of the canvas `c` with the tile at (ox, oy) written. -/
structure TileStored (c : Canvas) (ox oy : Nat) (m : Cells) : Prop where
  inside : ∀ p : Fin 16, (lookupCell m (storageIndex c (ox + p.val % 4) (oy + p.val / 4))).isSome = true
  outside : ∀ i, ¬ inTile c ox oy i → lookupCell m i = lookupCell c.cells i

/-- Decoding a block of a level that passed its checks stores its tile (R319, R322). -/
theorem LevelReady.decodeBlock_cells {s : State} (h : LevelReady s) (hf : s.fault = none) (hin : inCovered s)
    {k : Nat} (hk : k < s.lvl.nbx * s.lvl.nby) {c : Canvas} (hc : s.canvas = some c) :
    ∃ m, TileStored c (blockX s.lvl k) (blockY s.lvl k) m
      ∧ (Machine.decodeBlock s.lvl.variant (blockAddr s.lvl k) (blockX s.lvl k) (blockY s.lvl k) s).canvas
        = some { c with cells := m } := by
  obtain ⟨_, hc', hw, hh⟩ := h.canvas
  cases hc.symm.trans hc'
  obtain ⟨hx, hy⟩ := blockXY_inside h.nbx h.nby hk
  rw [← hw] at hx
  rw [← hh] at hy
  obtain ⟨val, -, hcanvas, -⟩ := decodeBlock_tile s.lvl.variant hf hc hx hy (h.blockAddr_le hk) hin
  refine ⟨_, ⟨fun p => ?_, fun i hi => lookupCell_tileCells_other val hi allPixels c.cells⟩, hcanvas⟩
  exact Option.isSome_iff_exists.2
    ⟨_, lookupCell_tileCells_mem val hx hy nodup_allPixels (mem_allPixels p) c.cells⟩

section
variable {s t : State} {c : Canvas} {k : Nat} {m : Cells} (hlvl : t.lvl = s.lvl) (hc : s.canvas = some c)
  (ht : t.canvas = some { c with cells := m }) (hm : TileStored c (blockX s.lvl k) (blockY s.lvl k) m)
include hlvl hc ht hm

/-- Storing the tile of block `k` writes it and keeps the blocks before it written. -/
theorem blocksWritten_succ (h : blocksWritten s k) : blocksWritten t (k + 1) := by
  intro j hj p c' hc'
  cases ht.symm.trans hc'
  rw [hlvl]
  show (lookupCell m (storageIndex c (blockX s.lvl j + p.val % 4) (blockY s.lvl j + p.val / 4))).isSome = true
  by_cases htile : inTile c (blockX s.lvl k) (blockY s.lvl k)
      (storageIndex c (blockX s.lvl j + p.val % 4) (blockY s.lvl j + p.val / 4))
  · obtain ⟨q, hq⟩ := htile
    rw [hq]
    exact hm.inside q
  · have hlt : j < k := Nat.lt_of_le_of_ne (Nat.le_of_lt_succ hj) fun hjk => htile ⟨p, by rw [hjk]⟩
    rw [hm.outside _ htile]
    exact h j hlt p c hc

/-- Storing the tile of a block of the grid leaves the margins UNWRITTEN: a pixel outside the grid is none of the tile's
and shares no cell with one (R295, R328). -/
theorem marginsUnwritten_tile (hk : k < s.lvl.nbx * s.lvl.nby) (hcx : 4 * s.lvl.nbx ≤ c.width)
    (hcy : 4 * s.lvl.nby ≤ c.height) (h : marginsUnwritten s) : marginsUnwritten t := by
  intro c' x y hc' hx hy hout
  cases ht.symm.trans hc'
  rw [hlvl] at hout
  show lookupCell m (storageIndex c x y) = none
  have hother : ¬ inTile c (blockX s.lvl k) (blockY s.lvl k) (storageIndex c x y) := by
    rintro ⟨q, hq⟩
    obtain ⟨hqx, hqy⟩ := blockPixel_inside hk q
    obtain ⟨hxq, hyq⟩ := storageIndex_inj hx hy (hqx.trans_le hcx) (hqy.trans_le hcy) hq
    omega
  rw [hm.outside _ hother]
  exact h c x y hc hx hy hout

end

/-! ### The steps of the sequencer -/

/-- SETUP leaves DECODE only, at block 0 of a blank canvas (R313). -/
theorem coverage_setupStep (s : State) : Coverage s.setupStep := by
  rcases setupStep_cases s with h | ⟨-, ⟨c, h⟩ | ⟨-, h⟩⟩ <;> rw [h]
  · exact .of_step nofun nofun
  · exact .of_step (by simp) (by simp)
  · constructor
    · exact fun _ j hj => absurd hj (Nat.not_lt_zero j)
    · nofun
    · rintro - c x y ⟨⟩ - - -
      rfl

/-- DECODE writes the block at BLOCK and goes to EMIT after the last one (R319). -/
theorem Coverage.decodeStep {s : State} (hinv : Inv s) (h : Coverage s) (hs : s.seq.step = .decode) :
    Coverage s.decodeStep := by
  obtain ⟨hready, hblock⟩ := hinv.decoding hs
  have hwritten := h.decoding hs
  have hmargins := h.margins (.inl hs)
  by_cases hdone : s.seq.block = s.lvl.nbx * s.lvl.nby
  · rw [decodeStep_of_done hdone]
    exact ⟨nofun, fun _ => hdone ▸ hwritten, fun _ => hmargins⟩
  · have hk : s.seq.block < s.lvl.nbx * s.lvl.nby := Nat.lt_of_le_of_ne hblock hdone
    have hin : inCovered s := hinv.covered (hinv.busy.2 (by simp [hs]))
    obtain ⟨c, hc, hw, hh⟩ := hready.canvas
    have hcx : 4 * s.lvl.nbx ≤ c.width := by have := hready.nbx; omega
    have hcy : 4 * s.lvl.nby ≤ c.height := by have := hready.nby; omega
    obtain ⟨m, hm, hcanvas⟩ := hready.decodeBlock_cells hinv.noFault hin hk hc
    obtain ⟨hfault, hseq⟩ := hready.decodeBlock_noFault hinv.noFault hin hk rfl
    have hlvl := decoderFrame_lvl (decodeBlock_frame s.lvl.variant (blockAddr s.lvl s.seq.block)
      (blockX s.lvl s.seq.block) (blockY s.lvl s.seq.block) s)
    rw [State.decodeStep, if_neg hdone, State.andThen_live _ hfault]
    generalize decodeBlock _ _ _ _ s = t at hcanvas hseq hlvl ⊢
    refine ⟨fun _ => ?_, nofun, fun _ => ?_⟩
    · have hnext : t.nextBlock.seq.block = s.seq.block + 1 := by rw [State.nextBlock, hseq]
      rw [hnext]
      exact blocksWritten_succ (t := t.nextBlock) hlvl hc hcanvas hm hwritten
    · exact marginsUnwritten_tile (t := t.nextBlock) hlvl hc hcanvas hm hk hcx hcy hmargins

/-- The engine's turn keeps the coverage: only SETUP and DECODE leave a canvas to decode into or to emit. -/
theorem Coverage.engineStep {s : State} (hinv : Inv s) (h : Coverage s) : Coverage s.engineStep := by
  unfold State.engineStep
  split
  · exact h
  · rcases parseStep_cases s with ⟨bs, -, -, ht⟩ | ⟨c, ht⟩ | ht <;> rw [ht]
    · exact .of_step nofun nofun
    · exact .of_step nofun nofun
    · exact h.congr rfl rfl rfl
  · exact coverage_setupStep s
  · next hs => exact h.decodeStep hinv hs
  · have hnext : s.emitStep.seq.step = .nextLevel := by rcases emitStep_cases s with ht | ht <;> rw [ht] <;> rfl
    exact .of_step (by simp [hnext]) (by simp [hnext])
  · unfold State.nextLevelStep
    split <;> exact .of_step nofun nofun
  · exact .of_step nofun nofun

/-! ### The obligations -/

theorem hostFrame_coverage {s t : State} (h : hostFrame s t) (hs : Coverage s) : Coverage t := by
  rw [h]
  exact hs.congr rfl rfl rfl

/-- Settles O56: the engine's turn keeps the coverage, the host does not write what it reads, and the start of a run and
reset leave no level under way. -/
theorem stepKeepsTheCoverage : Obligations.StepKeepsTheCoverage := by
  intro s t
  exact step_keeps (fun _ _ => hostFrame_coverage) (fun _ _ => .of_step nofun nofun) (fun _ => .of_step nofun nofun)
    fun _ => Coverage.engineStep

/-- The block and the pixel of a coordinate of the grid (R320). -/
theorem exists_blockPixel {l : Lvl} {x y : Nat} (hx : x < 4 * l.nbx) (hy : y < 4 * l.nby) :
    ∃ k, k < l.nbx * l.nby ∧ ∃ p : Fin 16, blockX l k + p.val % 4 = x ∧ blockY l k + p.val / 4 = y := by
  have hcol : x / 4 < l.nbx := by omega
  have hrow : y / 4 + 1 ≤ l.nby := by omega
  have hmod : (x / 4 + y / 4 * l.nbx) % l.nbx = x / 4 := by rw [Nat.add_mul_mod_self_right, Nat.mod_eq_of_lt hcol]
  have hdiv : (x / 4 + y / 4 * l.nbx) / l.nbx = y / 4 := by
    rw [Nat.add_mul_div_right _ _ (Nat.zero_lt_of_lt hcol), Nat.div_eq_of_lt hcol, Nat.zero_add]
  have hgrid := Nat.mul_le_mul_left l.nbx hrow
  refine ⟨x / 4 + y / 4 * l.nbx, ?_, ⟨y % 4 * 4 + x % 4, by omega⟩, ?_, ?_⟩
  · rw [Nat.mul_add, Nat.mul_one, Nat.mul_comm l.nbx (y / 4)] at hgrid
    omega
  · rw [blockX, hmod]
    show 4 * (x / 4) + (y % 4 * 4 + x % 4) % 4 = x
    omega
  · rw [blockY, hdiv]
    show 4 * (y / 4) + (y % 4 * 4 + x % 4) / 4 = y
    omega

/-- Settles O57: under FAIL width and height are multiples of 4, so the block grid is the whole canvas, and every block
of it is written at EMIT. -/
theorem noUnwrittenCellAtEmitUnderFail : Obligations.NoUnwrittenCellAtEmitUnderFail := by
  intro s hinv hcov hs hpol i hi
  have hready := hinv.emitting hs
  obtain ⟨c, hc, hw, hh⟩ := hready.canvas
  obtain ⟨hw4, hh4⟩ := hready.whole hpol
  have hcx : c.width ≤ 4 * s.lvl.nbx := by have := hready.nbx; omega
  have hcy : c.height ≤ 4 * s.lvl.nby := by have := hready.nby; omega
  rw [← hw, ← hh] at hi
  obtain ⟨hx, hy, hindex⟩ := storageIndex_surj hi
  obtain ⟨k, hk, p, hpx, hpy⟩ := exists_blockPixel (hx.trans_le hcx) (hy.trans_le hcy)
  have hcell := hcov.emitting hs k hk p c hc
  rw [hpx, hpy, hindex] at hcell
  rw [State.canvasCell, hc]
  exact hcell

end Sys2Proof.Machine
end

section
/-! PROOFS. The end of a run (60_exceptions.md R405; 70_reset_and_hazards.md R444): with the host idle the steps left
are bounded by those of the blocks and levels left. -/

namespace Sys2Proof.Machine

/-! ### Runs with the host idle -/

/-- The machine is under the invariant and the host does nothing more. -/
structure HostIdle (s : State) : Prop where
  inv : Inv s
  host : s.host = []

theorem engineStep_inputs (s : State) : inputsKept s s.engineStep := by
  unfold State.engineStep
  split
  · exact ⟨rfl, rfl, rfl, rfl, rfl⟩
  · exact parseStep_inputs s
  · exact setupStep_inputs s
  · exact decodeStep_inputs s
  · exact emitStep_inputs s
  · exact nextLevelStep_inputs s
  · exact ⟨rfl, rfl, rfl, rfl, rfl⟩

theorem HostIdle.engineStep {s : State} (h : HostIdle s) : HostIdle s.engineStep where
  inv := stepKeepsTheInvariant s _ h.inv (step_eq_engineStep h.inv h.host)
  host := by
    obtain ⟨-, -, -, hhost, -⟩ := engineStep_inputs s
    rw [hhost, h.host]

/-- The run ends in at most `n` steps. -/
def EndsWithin (n : Nat) (s : State) : Prop :=
  ∃ (m : Nat) (t : State), m ≤ n ∧ Host.Core.run Sys2Proof.core m s = .next t ∧ t.ended

theorem EndsWithin.mono {m n : Nat} {s : State} (h : EndsWithin m s) (hmn : m ≤ n) : EndsWithin n s := by
  obtain ⟨k, t, hk, hrun, hend⟩ := h
  exact ⟨k, t, hk.trans hmn, hrun, hend⟩

/-- The engine's turn is one step of the run. -/
theorem HostIdle.endsWithin_succ {s u : State} {n : Nat} (h : HostIdle s) (hu : s.engineStep = u)
    (hn : HostIdle u → EndsWithin n u) : EndsWithin (n + 1) s := by
  subst hu
  obtain ⟨m, t, hm, hrun, hend⟩ := hn h.engineStep
  have hstep : Sys2Proof.core.step s = .next s.engineStep := step_eq_engineStep h.inv h.host
  refine ⟨m + 1, t, Nat.succ_le_succ hm, ?_, hend⟩
  simp only [Host.Core.run, hstep, hrun]

theorem engineStep_of_setup {s : State} (hs : s.seq.step = .setup) : s.engineStep = s.setupStep := by
  simp [State.engineStep, hs]

theorem engineStep_of_decode {s : State} (hs : s.seq.step = .decode) : s.engineStep = s.decodeStep := by
  simp [State.engineStep, hs]

/-! ### The end of the directory -/

theorem HostIdle.endsWithin_endRun {s : State} (h : HostIdle s) (hs : s.seq.step = .endRun) : EndsWithin 1 s := by
  have hturn : s.engineStep = s.endStep := by simp [State.engineStep, hs]
  exact h.endsWithin_succ hturn fun _ => ⟨0, s.endStep, Nat.le_refl 0, rfl, rfl, rfl, rfl, h.inv.noFault⟩

/-- The terminating SETUP and END (R312, R324). -/
theorem HostIdle.endsWithin_terminator {s : State} (h : HostIdle s) (hs : s.seq.step = .setup)
    (hend : s.setupStep = s.goto .endRun) : EndsWithin 2 s :=
  h.endsWithin_succ ((engineStep_of_setup hs).trans hend) fun hu => hu.endsWithin_endRun rfl

/-! ### The bound of R444 -/

theorem stepsFrom_succ (h : Vector Byte 148) {i : Nat} (hi : i < 16) :
    stepsFrom h i = levelSteps h i + stepsFrom h (i + 1) := by
  have hcount : 16 - i = 16 - (i + 1) + 1 := by omega
  have hshift : (fun j => levelSteps h (i + j)) ∘ Nat.succ = fun j => levelSteps h (i + 1 + j) :=
    funext fun j => congrArg (levelSteps h) (by omega)
  rw [stepsFrom, stepsFrom, hcount, List.range_succ_eq_map, List.map_cons, List.map_map, List.sum_cons, hshift,
    Nat.add_assoc]
  rfl

theorem two_le_stepsFrom (h : Vector Byte 148) (i : Nat) : 2 ≤ stepsFrom h i := Nat.le_add_left 2 _

/-- From the SETUP of level `i` of a directory the run ends within the bound. -/
def SetupEnds (h : Vector Byte 148) (i : Nat) : Prop :=
  ∀ s, HostIdle s → s.seq.step = .setup → s.hdr = h → s.seq.level.val = i → EndsWithin (stepsFrom h i) s

/-! ### A level, when the next one ends within the bound -/

section
variable {s : State} (hidle : HostIdle s) (hnext : SetupEnds s.hdr (s.seq.level.val + 1))
include hidle hnext

/-- NEXT, and the next level or END (R323). -/
theorem endsWithin_nextLevel (hs : s.seq.step = .nextLevel) :
    EndsWithin (stepsFrom s.hdr (s.seq.level.val + 1) + 1) s := by
  have hturn : s.engineStep = s.nextLevelStep := by simp [State.engineStep, hs]
  refine hidle.endsWithin_succ hturn fun hu => ?_
  by_cases hall : s.runAll = true
  · refine hnext _ hu ?_ ?_ ?_ <;> rw [State.nextLevelStep, if_pos hall]
    · rfl
    · simp [levelSucc, hidle.inv.levelDone hs]
  · refine (hu.endsWithin_endRun ?_).mono (Nat.le_of_succ_le (two_le_stepsFrom _ _))
    rw [State.nextLevelStep, if_neg hall]
    rfl

/-- EMIT, then NEXT (R350). -/
theorem endsWithin_emit (hs : s.seq.step = .emit) : EndsWithin (stepsFrom s.hdr (s.seq.level.val + 1) + 2) s := by
  have hturn : s.engineStep = s.emitStep := by simp [State.engineStep, hs]
  have hhdr : s.emitStep.hdr = s.hdr := (emitStep_keeps s).1
  have hseq : s.emitStep.seq = { s.seq with step := .nextLevel } := by
    rcases emitStep_cases s with ht | ht <;> rw [ht] <;> simp [State.acceptImage, State.useAnswer]
  refine hidle.endsWithin_succ hturn fun hu => ?_
  have hends := endsWithin_nextLevel hu (by rw [hhdr, hseq]; exact hnext) (by rw [hseq])
  rw [hhdr, hseq] at hends
  exact hends

end

/-- DECODE of a block at a level that passed its checks advances BLOCK and keeps HDR and the level (R319). -/
theorem decodeStep_of_block {s : State} (hinv : Inv s) (hs : s.seq.step = .decode)
    (hk : s.seq.block < s.lvl.nbx * s.lvl.nby) :
    s.decodeStep.seq = { s.seq with block := s.seq.block + 1 } ∧ s.decodeStep.lvl = s.lvl
      ∧ s.decodeStep.hdr = s.hdr := by
  have hready := (hinv.decoding hs).1
  have hin : inCovered s := hinv.covered (hinv.busy.2 (by simp [hs]))
  obtain ⟨hfault, hseq⟩ := hready.decodeBlock_noFault hinv.noFault hin hk rfl
  have hlvl := decoderFrame_lvl (decodeBlock_frame s.lvl.variant (blockAddr s.lvl s.seq.block)
    (blockX s.lvl s.seq.block) (blockY s.lvl s.seq.block) s)
  refine ⟨?_, ?_, (decodeStep_records s).1⟩ <;>
    rw [State.decodeStep, if_neg (Nat.ne_of_lt hk), State.andThen_live _ hfault, State.nextBlock]
  · rw [hseq, ← hs, hinv.pix.symm]
  · exact hlvl

/-- The blocks left, then EMIT (R319). -/
theorem endsWithin_decode {left : Nat} {s : State} (hidle : HostIdle s)
    (hnext : SetupEnds s.hdr (s.seq.level.val + 1)) (hs : s.seq.step = .decode)
    (hleft : s.seq.block + left = s.lvl.nbx * s.lvl.nby) :
    EndsWithin (stepsFrom s.hdr (s.seq.level.val + 1) + 3 + left) s := by
  induction left generalizing s with
  | zero =>
    have hturn : s.engineStep = s.goto .emit := (engineStep_of_decode hs).trans (decodeStep_of_done hleft)
    exact hidle.endsWithin_succ (n := stepsFrom s.hdr (s.seq.level.val + 1) + 2) hturn
      fun hu => endsWithin_emit hu hnext rfl
  | succ left ih =>
    obtain ⟨hseq, hlvl, hhdr⟩ := decodeStep_of_block hidle.inv hs (by omega)
    refine hidle.endsWithin_succ (engineStep_of_decode hs) fun hu => ?_
    have hblocks : s.decodeStep.seq.block + left = s.decodeStep.lvl.nbx * s.decodeStep.lvl.nby := by
      rw [hseq, hlvl, ← hleft]
      show s.seq.block + 1 + left = _
      omega
    have hends := ih hu (by rw [hhdr, hseq]; exact hnext) (by rw [hseq]; exact hs) hblocks
    rw [hhdr, hseq] at hends
    exact hends

/-- SETUP of a level of the directory: the terminator, an error and NEXT, or all its blocks (R313). -/
theorem endsWithin_setup {s : State} (hidle : HostIdle s) (hnext : SetupEnds s.hdr (s.seq.level.val + 1))
    (hs : s.seq.step = .setup) (hl : s.seq.level.val < 16) : EndsWithin (stepsFrom s.hdr s.seq.level.val) s := by
  have hturn := engineStep_of_setup hs
  rw [stepsFrom_succ s.hdr hl, levelSteps]
  rcases setupStep_cases s with ht | ⟨-, ⟨c, ht⟩ | ⟨-, ht⟩⟩
  · exact (hidle.endsWithin_terminator hs ht).mono (by omega)
  · have hends : EndsWithin (stepsFrom s.hdr (s.seq.level.val + 1) + 1 + 1) s :=
      hidle.endsWithin_succ (hturn.trans ht) fun hu => by
        simpa using endsWithin_nextLevel hu (by simpa using hnext) (by simp)
    exact hends.mono (by omega)
  · have hends : EndsWithin (stepsFrom s.hdr (s.seq.level.val + 1) + 3 + (levelRegs s).nbx * (levelRegs s).nby + 1) s :=
      hidle.endsWithin_succ (hturn.trans ht) fun hu => endsWithin_decode hu hnext rfl (Nat.zero_add _)
    refine hends.mono ?_
    simp only [levelRegs]
    omega

/-! ### The obligations -/

/-- Every level's SETUP ends within the bound, from the level after the last one downwards. -/
theorem setupEnds (h : Vector Byte 148) {i : Nat} (hi : i ≤ 16) : SetupEnds h i := by
  induction hi using Nat.decreasingInduction with
  | self =>
    intro s hidle hs _ hlevel
    exact (hidle.endsWithin_terminator hs (setupStep_of_terminator (atTerminator_iff.2 (.inl hlevel)))).mono
      (two_le_stepsFrom _ _)
  | of_succ i hi ih =>
    rintro s hidle hs rfl rfl
    exact endsWithin_setup hidle ih hs hi

/-- Settles O58: the bound counts the steps of each level in turn, from the last level backwards. -/
theorem runEndsWithinTheStepBound : Obligations.RunEndsWithinTheStepBound :=
  fun s hinv hhost hs => setupEnds s.hdr (Nat.le_of_lt_succ s.seq.level.isLt) s ⟨hinv, hhost⟩ hs rfl rfl

/-- A run ends from every step: from PARSE it goes to SETUP or END, and from a step within a level to the next one. -/
theorem HostIdle.ends {s : State} (h : HostIdle s) (hs : s.seq.step ≠ .idle) : ∃ n, EndsWithin n s := by
  have hsetup {t : State} (ht : HostIdle t) (hstep : t.seq.step = .setup) : ∃ n, EndsWithin n t :=
    ⟨_, setupEnds t.hdr (Nat.le_of_lt_succ t.seq.level.isLt) t ht hstep rfl rfl⟩
  have hnext (hl : s.seq.level.val < 16) : SetupEnds s.hdr (s.seq.level.val + 1) := setupEnds s.hdr hl
  cases hstep : s.seq.step with
  | idle => exact absurd hstep hs
  | parse =>
    have hturn : s.engineStep = s.parseStep := by simp [State.engineStep, hstep]
    rcases parseStep_covered (h.inv.covered (h.inv.busy.2 hs)) with ⟨bs, ht⟩ | ⟨c, ht⟩
    · obtain ⟨n, hn⟩ := hsetup (t := s.latchHeader bs) (hturn.trans ht ▸ h.engineStep) rfl
      exact ⟨n + 1, h.endsWithin_succ (hturn.trans ht) fun _ => hn⟩
    · exact ⟨2, h.endsWithin_succ (hturn.trans ht) fun hu => hu.endsWithin_endRun rfl⟩
  | setup => exact hsetup h hstep
  | decode =>
    obtain ⟨hready, hblock⟩ := h.inv.decoding hstep
    exact ⟨_, endsWithin_decode h (hnext hready.level) hstep (Nat.add_sub_cancel' hblock)⟩
  | emit => exact ⟨_, endsWithin_emit h (hnext (h.inv.emitting hstep).level) hstep⟩
  | nextLevel => exact ⟨_, endsWithin_nextLevel h (hnext (h.inv.levelDone hstep)) hstep⟩
  | endRun => exact ⟨1, h.endsWithin_endRun hstep⟩

/-- Settles O59: from every step a bound on the steps left. -/
theorem everyRunEnds : Obligations.EveryRunEnds := by
  intro s hinv hhost hs
  obtain ⟨_, n, t, -, hrun, hend⟩ := HostIdle.ends ⟨hinv, hhost⟩ hs
  exact ⟨n, t, hrun, hend⟩

end Sys2Proof.Machine
end

section
/-! PROOFS. DECODE_BC1 of a block (41_bc1.md R202 to R210): MODE4, the palette in both modes as numbers, and the word of
each pixel. -/

namespace Sys2Proof.Machine

open Sys2Proof.Claims

/-! ### The three-colour ramp -/

theorem t3Lane_eq (t : T3Rgb) (x y : Nat) : t3Lane t x y = t3 t x y := by
  cases t <;> rfl

/-- Interpolating between two lane values stays below their bound, and so does the transparent slot (R205). -/
theorem ramp3Lane_lt (t : T3Rgb) {x y m : Nat} (hx : x < m) (hy : y < m) (k : Nat) : ramp3Lane t x y k < m := by
  unfold ramp3Lane
  split_ifs
  · exact hx
  · exact hy
  · omega
  · cases t <;> simp only [t3Lane] <;> omega

/-- The lane rule of the ramp gives the four entries of R205. -/
theorem lane3_of_ramp3Lane {t : T3Rgb} {e : Fin 4 → Nat} {x y : Nat} (h : ∀ k, e k = ramp3Lane t x y k.val) :
    lane3 t e x y :=
  ⟨h 0, h 1, h 2, (h 3).trans (t3Lane_eq t x y)⟩

/-- Every lane of RAMP3 follows the rule of R205: no lane overflows its width. -/
theorem palFollows_ramp3 (t : T3Rgb) (c0 c1 : BitVec 16) (pal : Vector PalEntry 4) :
    palFollows (lane3 t) (ramp3 t c0 c1 pal) c0 c1 := by
  simp only [palFollows, ← unpack565_r_toNat, ← unpack565_g_toNat, ← unpack565_b_toNat]
  refine ⟨lane3_of_ramp3Lane fun k => ?_, lane3_of_ramp3Lane fun k => ?_, lane3_of_ramp3Lane fun k => ?_⟩ <;>
  · rw [ramp3, getElem_rampPal]
    exact Nat.mod_eq_of_lt (ramp3Lane_lt t (BitVec.isLt _) (BitVec.isLt _) _)

/-- RAMP3 writes no field A (notes/assumptions/10.md). -/
theorem getElem_ramp3_a (t : T3Rgb) (c0 c1 : BitVec 16) (pal : Vector PalEntry 4) (k : Fin 4) :
    (ramp3 t c0 c1 pal)[k].a = pal[k].a := by
  rw [ramp3, getElem_rampPal]
  rfl

/-! ### The state in which the pixels are resolved -/

/-- The palette MODE4 selects: four colours for n0 > n1, else three (R203 to R205). -/
def bc1Pal (t : T3Rgb) (n0 n1 : Nat) (pal : Vector PalEntry 4) : Vector PalEntry 4 :=
  if n0 > n1 then ramp4 (BitVec.ofNat 16 n0) (BitVec.ofNat 16 n1) pal
  else ramp3 t (BitVec.ofNat 16 n0) (BitVec.ofNat 16 n1) pal

theorem getElem_bc1Pal_a (t : T3Rgb) (n0 n1 : Nat) (pal : Vector PalEntry 4) (k : Fin 4) :
    (bc1Pal t n0 n1 pal)[k].a = pal[k].a := by
  unfold bc1Pal
  split
  · exact getElem_ramp4_a _ _ _ _
  · exact getElem_ramp3_a _ _ _ _ _

/-- What the loads of R202 and the palette of R203 to R205 leave, field by field. -/
theorem bc1Prepared_eq {n0 n1 : Nat} (h0 : n0 < 2 ^ 16) (h1 : n1 < 2 ^ 16) (s : State) (n2 : Nat) :
    bc1Prepared s n0 n1 n2 = { s with
      dp := { s.dp with
        c0 := some (BitVec.ofNat 16 n0), c1 := some (BitVec.ofNat 16 n1), csel := some (BitVec.ofNat 32 n2) }
      flags := { s.flags with mode4 := decide (n0 > n1) }
      pal := bc1Pal s.params.bc1T3Rgb n0 n1 s.pal } := by
  have hmode : bc1Mode4 (BitVec.ofNat 16 n0) (BitVec.ofNat 16 n1) = decide (n0 > n1) := by
    rw [bc1Mode4, BitVec.toNat_ofNat, BitVec.toNat_ofNat, Nat.mod_eq_of_lt h0, Nat.mod_eq_of_lt h1]
  rw [bc1Prepared, bc1Palette_some rfl rfl, hmode]
  simp [bc1Pal]

/-- The word of a BC1 pixel is the palette entry its digit of CSEL names, transparent only for index 3 in 3-colour mode
(R206). -/
theorem bc1Value_eq_palPixel {n2 : Nat} (s : State) {p : Fin 16} {k : Fin 4} (hn : n2 < 2 ^ 32)
    (hk : ci n2 p.val = k.val) : bc1Value s (BitVec.ofNat 32 n2) p
      = palPixel s.pal[k] (if s.flags.mode4 = false ∧ k = 3 then 0x00 else 0xFF) := by
  have hthree : colourIndex (BitVec.ofNat 32 n2) p.val = 3 ↔ k = 3 := by
    rw [colourIndex_eq_three hn, hk, Fin.ext_iff]
    rfl
  simp only [bc1Value, colourIndex_toFin hn hk, hthree]

/-! ### The obligation -/

/-- Settles O16: the comparison of the endpoints selects MODE4 and the ramp, and the 16 words of the tile are entries of
that ramp. -/
theorem decodeBc1ResolvesItsBlock : Obligations.DecodeBc1ResolvesItsBlock := by
  intro s c a ox oy n0 n1 n2 htile h0 h1 h2
  obtain ⟨hf, hc, hx, hy⟩ := htile
  have hblock := bc1Block_tile hf hc hx hy h0 h1 h2 (bc1Prepared_eq (inRead_lt h0) (inRead_lt h1) s n2).symm
  have hpal : (bc1Block a ox oy s).pal = bc1Pal s.params.bc1T3Rgb n0 n1 s.pal := congrArg State.pal hblock
  have hcanvas : (bc1Block a ox oy s).canvas = _ := congrArg State.canvas hblock
  refine ⟨bc1Block a ox oy s, whenLive_next_iff.2 ⟨hf, rfl⟩, ?_, fun hmode => ?_, fun hmode => ?_, fun k => ?_,
    fun p k hk => ?_, onlyTileWritten_tileCells hcanvas⟩
  · rw [hpal, hcanvas]
    exact hblock
  · rw [hpal, bc1Pal, if_pos hmode]
    exact palFollows_ramp4 _ _ _
  · rw [hpal, bc1Pal, if_neg (Nat.not_lt.2 hmode)]
    exact palFollows_ramp3 _ _ _ _
  · rw [hpal]
    exact getElem_bc1Pal_a _ _ _ _ _
  · have hcell := canvasCell_tileCells hcanvas hx hy p
    rw [bc1Value_eq_palPixel _ (inRead_lt h2) hk] at hcell
    have halpha : (if n0 ≤ n1 ∧ k = 3 then 0x00 else 0xFF)
        = (if decide (n0 > n1) = false ∧ k = 3 then 0x00 else 0xFF : Byte).toNat := by
      simp only [decide_eq_false_iff_not, gt_iff_lt, Nat.not_lt]
      split <;> rfl
    rw [hpal, halpha]
    exact cellIs_palPixel hcell

end Sys2Proof.Machine
end

section
/-! PROOFS. What a decoder's result depends on (41_bc1.md R201) and the block that passes IN_LEN (00_scope.md R15). -/

namespace Sys2Proof.Machine

/-! ### The pixel loop reads the operands and the canvas only -/

/-- `w` holds the operands of `u` from which the pixels are resolved. -/
def sameOperands (u w : State) : Prop := w.dp = u.dp ∧ w.pal = u.pal ∧ w.aramp = u.aramp ∧ w.flags = u.flags

/-- The two machines show the same canvas and the same fault mark. -/
def sameCanvas (w w' : State) : Prop := w.canvas = w'.canvas ∧ w.fault = w'.fault

theorem sameOperands_canvasStore {u w : State} (h : sameOperands u w) (x y : Nat) (v : Word) :
    sameOperands u (w.canvasStore x y v) := by
  rcases w.canvasStore_cases x y v with ⟨c, -, -, -, ht⟩ | ht <;> rw [ht] <;> exact h

/-- A canvas write depends on the canvas alone (R292). -/
theorem sameCanvas_canvasStore {w w' : State} (h : sameCanvas w w') (x y : Nat) (v : Word) :
    sameCanvas (w.canvasStore x y v) (w'.canvasStore x y v) := by
  obtain ⟨hcanvas, hfault⟩ := h
  cases hc : w.canvas with
  | none =>
    rw [State.canvasStore_noCanvas x y v hc, State.canvasStore_noCanvas x y v (hcanvas.symm.trans hc)]
    exact ⟨hcanvas, rfl⟩
  | some c =>
    have hc' : w'.canvas = some c := hcanvas.symm.trans hc
    by_cases hin : x < c.width ∧ y < c.height
    · rw [State.canvasStore_inside v hc hin.1 hin.2, State.canvasStore_inside v hc' hin.1 hin.2]
      exact ⟨rfl, hfault⟩
    · rw [State.canvasStore_outside v hc (by omega), State.canvasStore_outside v hc' (by omega)]
      exact ⟨hcanvas, rfl⟩

/-- The pixels of `u` are resolved to the words `val`. -/
def resolvesTo (alpha : AlphaRule) (ox oy : Nat) (u : State) (val : Fin 16 → Word) : Prop :=
  ∀ (p : Fin 16) (w : State), sameOperands u w →
    storePixel alpha ox oy p w = w.canvasStore (ox + p.val % 4) (oy + p.val / 4) (val p)

/-- Two machines that resolve their pixels to the same words end the pixel loop alike. -/
theorem sameCanvas_pixelLoop {alpha alpha' : AlphaRule} {ox oy : Nat} {u u' : State} {val : Fin 16 → Word}
    (hu : resolvesTo alpha ox oy u val) (hu' : resolvesTo alpha' ox oy u' val) (ps : List (Fin 16)) {w w' : State}
    (hw : sameOperands u w) (hw' : sameOperands u' w') (h : sameCanvas w w') :
    sameCanvas (pixelLoop (storePixel alpha ox oy) ps w) (pixelLoop (storePixel alpha' ox oy) ps w') := by
  induction ps generalizing w w' with
  | nil => exact h
  | cons p ps ih =>
    have hnext := sameOperands_canvasStore (w := w.setPix p) hw (ox + p.val % 4) (oy + p.val / 4) (val p)
    have hnext' := sameOperands_canvasStore (w := w'.setPix p) hw' (ox + p.val % 4) (oy + p.val / 4) (val p)
    have hsame := sameCanvas_canvasStore (w := w.setPix p) (w' := w'.setPix p) h (ox + p.val % 4) (oy + p.val / 4)
      (val p)
    rw [pixelLoop, pixelLoop, hu p (w.setPix p) hw, hu' p (w'.setPix p) hw']
    generalize (w.setPix p).canvasStore _ _ _ = t at hnext hsame ⊢
    generalize (w'.setPix p).canvasStore _ _ _ = t' at hnext' hsame ⊢
    cases hf : t.fault with
    | none =>
      rw [State.andThen_live _ hf, State.andThen_live _ (hsame.2.symm.trans hf)]
      exact ih hnext hnext' hsame
    | some f =>
      rw [State.andThen_faulted _ (by simp [hf]), State.andThen_faulted _ (by simp [hsame.2.symm.trans hf])]
      exact hsame

/-! ### The words of a block depend on its bytes -/

/-- The palette entries of two ramps differ in field A at most, which no pixel word reads (R131, R206). -/
theorem palPixel_rampPal_congr (lane : Nat → Nat → Nat → Nat) (p0 p1 : Rgb) (pal pal' : Vector PalEntry 4) (k : Fin 4)
    (a : Byte) : palPixel (rampPal lane p0 p1 pal)[k] a = palPixel (rampPal lane p0 p1 pal')[k] a := by
  rw [getElem_rampPal, getElem_rampPal]
  rfl

theorem bc1Value_congr {s s' : State} (ht3 : s.params.bc1T3Rgb = s'.params.bc1T3Rgb) {n0 n1 : Nat} (h0 : n0 < 2 ^ 16)
    (h1 : n1 < 2 ^ 16) (n2 : Nat) : bc1Value (bc1Prepared s n0 n1 n2) (BitVec.ofNat 32 n2)
      = bc1Value (bc1Prepared s' n0 n1 n2) (BitVec.ofNat 32 n2) := by
  funext p
  simp only [bc1Value, bc1Prepared_eq h0 h1, bc1Pal, ht3]
  split
  · exact palPixel_rampPal_congr _ _ _ _ _ _ _
  · exact palPixel_rampPal_congr _ _ _ _ _ _ _

theorem bc2Value_congr (s s' : State) (nf n0 n1 n2 : Nat) :
    bc2Value (bc2Prepared s nf n0 n1 n2) (BitVec.ofNat 32 n2) (BitVec.ofNat 64 nf)
      = bc2Value (bc2Prepared s' nf n0 n1 n2) (BitVec.ofNat 32 n2) (BitVec.ofNat 64 nf) :=
  funext fun _ => palPixel_rampPal_congr _ _ _ _ _ _ _

theorem bc3Value_congr (s s' : State) (nf n0 n1 n2 : Nat) :
    bc3Value (bc3Prepared s nf n0 n1 n2) (BitVec.ofNat 32 n2) (BitVec.ofNat 64 nf)
      = bc3Value (bc3Prepared s' nf n0 n1 n2) (BitVec.ofNat 32 n2) (BitVec.ofNat 64 nf) :=
  funext fun _ => palPixel_rampPal_congr _ _ _ _ _ _ _

/-- Two machines that read the same bytes read the same number from a part of them. -/
theorem inRead_part_both {s s' : State} {a a' n : Nat} {bs : List Byte} (h : inReadBytes s a n = some bs)
    (h' : inReadBytes s' a' n = some bs) (o k : Nat) (hk : o + k ≤ n) :
    ∃ v, inRead s (a + o) k = some v ∧ inRead s' (a' + o) k = some v := by
  obtain ⟨hlen, hbytes⟩ := inReadBytes_eq_some.1 h
  obtain ⟨hlen', hbytes'⟩ := inReadBytes_eq_some.1 h'
  exact ⟨_, congrArg (Option.map leNat) (inReadBytes_eq_some.2 ⟨by omega, memBytes_part hbytes hk⟩),
    congrArg (Option.map leNat) (inReadBytes_eq_some.2 ⟨by omega, memBytes_part hbytes' hk⟩)⟩

/-- Two machines with the same block bytes and the same BC1_T3_RGB resolve the block's pixels to the same words
(R201). -/
theorem exists_blockPrepared_both (v : Variant) {s s' : State} {a a' : Nat} {bs : List Byte} (hf : s.fault = none)
    (hf' : s'.fault = none) (ht3 : s.params.bc1T3Rgb = s'.params.bc1T3Rgb)
    (h : inReadBytes s a (blockSize v) = some bs) (h' : inReadBytes s' a' (blockSize v) = some bs) :
    ∃ u u' alpha val, BlockPrepared v a s u alpha val ∧ BlockPrepared v a' s' u' alpha val := by
  have hpart := inRead_part_both h h'
  cases v with
  | bc1 =>
    obtain ⟨n0, h0, h0'⟩ := hpart 0 2 (by decide)
    obtain ⟨n1, h1, h1'⟩ := hpart 2 2 (by decide)
    obtain ⟨n2, h2, h2'⟩ := hpart 4 4 (by decide)
    have hright := blockPrepared_bc1 hf' h0' h1' h2'
    rw [← bc1Value_congr ht3 (inRead_lt h0) (inRead_lt h1)] at hright
    exact ⟨_, _, _, _, blockPrepared_bc1 hf h0 h1 h2, hright⟩
  | bc2 =>
    obtain ⟨nf, hn, hn'⟩ := hpart 0 8 (by decide)
    obtain ⟨n0, h0, h0'⟩ := hpart 8 2 (by decide)
    obtain ⟨n1, h1, h1'⟩ := hpart 10 2 (by decide)
    obtain ⟨n2, h2, h2'⟩ := hpart 12 4 (by decide)
    have hright := blockPrepared_bc2 hf' hn' h0' h1' h2'
    rw [← bc2Value_congr s s'] at hright
    exact ⟨_, _, _, _, blockPrepared_bc2 hf hn h0 h1 h2, hright⟩
  | bc3 =>
    obtain ⟨nf, hn, hn'⟩ := hpart 0 8 (by decide)
    obtain ⟨n0, h0, h0'⟩ := hpart 8 2 (by decide)
    obtain ⟨n1, h1, h1'⟩ := hpart 10 2 (by decide)
    obtain ⟨n2, h2, h2'⟩ := hpart 12 4 (by decide)
    have hright := blockPrepared_bc3 hf' hn' h0' h1' h2'
    rw [← bc3Value_congr s s'] at hright
    exact ⟨_, _, _, _, blockPrepared_bc3 hf hn h0 h1 h2, hright⟩

/-- The pixels are resolved to their words on any canvas. -/
theorem BlockPrepared.resolvesTo {v : Variant} {a : Nat} {s u : State} {alpha : AlphaRule} {val : Fin 16 → Word}
    (h : BlockPrepared v a s u alpha val) (ox oy : Nat) (k : Option Canvas) :
    resolvesTo alpha ox oy { u with canvas := k } val :=
  fun p w ⟨hdp, hpal, haramp, hflags⟩ => h.pixel ox oy p w hdp hpal haramp hflags

/-- Settles O21: the same bytes resolve to the same words, and the pixel loop stores them by the canvas alone. -/
theorem decoderResultDependsOnBlockBytesOnly : Obligations.DecoderResultDependsOnBlockBytesOnly := by
  intro v s s' t t' a a' ox oy bs ht3 hcanvas hb hb' ht ht'
  rw [exec_decoderInstr] at ht ht'
  obtain ⟨hf, rfl⟩ := whenLive_next_iff.1 ht
  obtain ⟨hf', rfl⟩ := whenLive_next_iff.1 ht'
  obtain ⟨u, u', alpha, val, hu, hu'⟩ := exists_blockPrepared_both v hf hf' ht3 hb hb'
  have hblock : decodeBlock v a ox oy s = storePixels alpha ox oy { u with canvas := s.canvas } :=
    hu.block s.canvas ox oy
  have hblock' : decodeBlock v a' ox oy s' = storePixels alpha ox oy { u' with canvas := s'.canvas } :=
    hu'.block s'.canvas ox oy
  rw [hblock, hblock']
  exact sameCanvas_pixelLoop (hu.resolvesTo ox oy s.canvas) (hu'.resolvesTo ox oy s'.canvas) allPixels
    ⟨rfl, rfl, rfl, rfl⟩ ⟨rfl, rfl, rfl, rfl⟩ ⟨hcanvas, hu.fault.trans hu'.fault.symm⟩

/-! ### A block that passes IN_LEN -/

/-- `t` is what some loads of operands from a live `s` leave: the canvas and IN_LEN as they were, and at most
FAULT_IN_BOUNDS (R15). -/
structure OperandsLoaded (s t : State) : Prop where
  canvas : t.canvas = s.canvas
  inLen : t.inLen = s.inLen
  fault : t.fault = none ∨ t.fault = some .inBounds

theorem operandsLoaded_load {s : State} (a n : Nat) {put : State → Nat → State}
    (hput : ∀ v, OperandsLoaded s (put s v)) : OperandsLoaded s (s.load a n put) := by
  rcases s.load_cases a n put with ⟨v, -, h⟩ | ⟨-, h⟩ <;> rw [h]
  · exact hput v
  · exact ⟨rfl, rfl, .inr rfl⟩

/-- Loads one after the other: a fault of the first stops them. -/
theorem operandsLoaded_andThen {s t : State} (h : OperandsLoaded s t) {k : State → State}
    (hk : t.fault = none → OperandsLoaded t (k t)) : OperandsLoaded s (t.andThen k) := by
  rcases h.fault with hf | hf
  · have hnext := hk hf
    rw [State.andThen_live k hf]
    exact ⟨hnext.canvas.trans h.canvas, hnext.inLen.trans h.inLen, hnext.fault⟩
  · rw [State.andThen_faulted k (by simp [hf])]
    exact h

/-- Loads one after the other fault where the second one faults on a live state. -/
theorem fault_andThen {s t : State} (h : OperandsLoaded s t) {k : State → State}
    (hk : t.fault = none → (k t).fault = some .inBounds) : (t.andThen k).fault = some .inBounds := by
  rcases h.fault with hf | hf
  · rw [State.andThen_live k hf, hk hf]
  · rw [State.andThen_faulted k (by simp [hf]), hf]

theorem load_past {s : State} {a n : Nat} (h : s.inLen.toNat < a + n) (put : State → Nat → State) :
    s.load a n put = s.raise .inBounds := by
  have hnone : inRead s a n = none := by simp [inRead, inReadBytes, Nat.not_le.2 h]
  simp [State.load, hnone]

/-- The colour operands of a block that passes IN_LEN raise FAULT_IN_BOUNDS, at CSEL at the latest (R15, R128). -/
theorem loadColours_past {s : State} {a : Nat} (hf : s.fault = none) (h : s.inLen.toNat < a + 8) :
    OperandsLoaded s (loadColours a s) ∧ (loadColours a s).fault = some .inBounds := by
  have hfirst : OperandsLoaded s ((loadC0 a s).andThen (loadC1 (a + 2))) :=
    operandsLoaded_andThen (operandsLoaded_load _ _ fun _ => ⟨rfl, rfl, .inl hf⟩)
      fun hf' => operandsLoaded_load _ _ fun _ => ⟨rfl, rfl, .inl hf'⟩
  refine ⟨operandsLoaded_andThen hfirst fun hf' => operandsLoaded_load _ _ fun _ => ⟨rfl, rfl, .inl hf'⟩,
    fault_andThen hfirst fun _ => ?_⟩
  rw [loadCsel, load_past (by rw [hfirst.inLen]; omega)]
  rfl

theorem loadAlphaBlock_past {s : State} {a : Nat} (hf : s.fault = none) (h : s.inLen.toNat < a + 16) :
    OperandsLoaded s (loadAlphaBlock a s) ∧ (loadAlphaBlock a s).fault = some .inBounds := by
  have hfirst : OperandsLoaded s (loadAfield a s) := operandsLoaded_load _ _ fun _ => ⟨rfl, rfl, .inl hf⟩
  have hcolours (hf' : (loadAfield a s).fault = none) := loadColours_past (a := a + 8) hf'
    (by rw [hfirst.inLen]; omega)
  exact ⟨operandsLoaded_andThen hfirst fun hf' => (hcolours hf').1, fault_andThen hfirst fun hf' => (hcolours hf').2⟩

/-- Settles O22: the operands are loaded first, their last byte lies past IN_LEN, and the fault stops the decoder before
its pixels. -/
theorem blockPastInLenFaults : Obligations.BlockPastInLenFaults := by
  intro v s a ox oy hf hpast
  refine ⟨decodeBlock v a ox oy s, ?_, ?_⟩
  · rw [exec_decoderInstr, whenLive_live _ hf]
  · have hstop {t : State} (ht : OperandsLoaded s t ∧ t.fault = some .inBounds) (k : State → State) :
        OperandsLoaded s (t.andThen k) ∧ (t.andThen k).fault = some .inBounds := by
      rw [State.andThen_faulted k (by simp [ht.2])]
      exact ht
    have hblock : OperandsLoaded s (decodeBlock v a ox oy s) ∧ (decodeBlock v a ox oy s).fault = some .inBounds := by
      cases v with
      | bc1 => exact hstop (hstop (loadColours_past hf hpast) _) _
      | bc2 => exact hstop (hstop (loadAlphaBlock_past hf hpast) _) _
      | bc3 => exact hstop (hstop (hstop (loadAlphaBlock_past hf hpast) _) _) _
    exact ⟨hblock.2, hblock.1.canvas⟩

end Sys2Proof.Machine
end
